-- ==== Sys2Proof/Word.lean ====
section
/-! DEFINITION. The word types of the VD4T model: registers of the control space are 64 bits (R7), memory is
addressed by the byte (R6). -/
namespace Sys2Proof

/-- A control-space register or a 64-bit scalar (R7, R184). -/
abbrev Word := BitVec 64

/-- A byte of memory (R6). -/
abbrev Byte := BitVec 8

end Sys2Proof
end

