-- ==== Sys2Proof/Syntax.lean ====
section
/-! DEFINITION. The commands of the VD4T: one constructor of `Instr` per row of the command table, with the row's operands.
What the world outside the part supplies to a command (bytes a host returns, a temperature, the outcome of a training
run) is an operand as well. -/
namespace Sys2Proof

/-- A PCIe port (R22). -/
inductive Port where
  | ha | hb
  deriving DecidableEq, Repr

/-- A sender of command packets (R318). -/
inductive Source where
  | host (p : Port)
  | sideband
  deriving DecidableEq, Repr

/-- What a packet's header says besides its opcode (Table 16-4), with the ring it came from. -/
structure Hdr where
  src  : Source
  ring : Fin 4
  tag  : BitVec 16
  irq  : Bool
  deriving DecidableEq, Repr

/-- The bytes a host returns for a read through one of its windows, or that the read fails (R244, R326). -/
structure HostRead where
  ok    : Bool
  bytes : List Byte
  deriving DecidableEq, Repr

/-- What error correction finds on a read (R212, R226, R354). -/
inductive Ecc where
  | none | corrected | uncorrectable
  deriving DecidableEq, Repr

/-- What has come up in the codeword that a controller reads (R225): a correction by the on-die ECC of HBM4; for the controller's own
code the 16-bit symbols (HBM4) or devices (DDR5) in error, the bits in error in the worst beat, and of DDR5 the subchannel and
device. -/
structure TierErr where
  onDie : Bool
  parts : BitVec 5
  bits  : BitVec 6
  lane  : BitVec 6
  deriving DecidableEq, Repr

/-- What a module's serial presence detect says (R216): registered with ECC, ranks, height of a 3DS stack, device width, data and
check bits of a subchannel, capacity, and whether 6,400, 5,600 and 4,800 MT/s are declared. -/
structure Spd where
  rdimm : Bool
  ranks : BitVec 4
  high  : BitVec 4
  width : BitVec 6
  data  : BitVec 8
  check : BitVec 8
  gib   : BitVec 12
  r6400 : Bool
  r5600 : Bool
  r4800 : Bool
  deriving DecidableEq, Repr

/-- A logical engine of a yard (R12, R13). -/
structure MEng where
  yard : Fin 4
  idx  : Fin 16
  deriving DecidableEq, Repr
structure VEng where
  yard : Fin 4
  idx  : Fin 8
  deriving DecidableEq, Repr
structure SEng where
  yard : Fin 4
  idx  : Fin 4
  deriving DecidableEq, Repr
structure XEng where
  yard : Fin 4
  idx  : Fin 8
  deriving DecidableEq, Repr

/-- A register word of an engine, or a crossing FIFO of a clock region, in which an error comes up as it is read (R354, Table 18-2:
structures 4 to 6). -/
inductive RegErr where
  | none
  | vector (e : VEng) (uncorr : Bool)
  | scalar (e : SEng) (uncorr : Bool)
  | matrix (e : MEng) (uncorr : Bool)
  | crossing (region : Fin 16) (uncorr : Bool)
  deriving DecidableEq, Repr

/-- What a host has enabled in a port's configuration space, as its configuration writes leave it (R309, R243, R244). -/
structure CfgEnables where
  bme : Bool
  ats : Bool
  pri : Bool
  priAlloc : BitVec 16
  tag10 : Bool
  tag14 : Bool
  ro : Bool
  ns : Bool
  mps : BitVec 2
  fnMask : Bool
  deriving DecidableEq, Repr

/-- A PCIe configuration request (R310): a read of the identifiers, of the class and revision, of the serial number, or a
write of the host's enables. -/
inductive CfgReq where
  | readIds
  | readClass
  | readSerial
  | write (e : CfgEnables)
  deriving DecidableEq, Repr

/-- The coordinates of TRANSFER_RESUME (R246). -/
structure Coords where
  c0 : BitVec 32
  c1 : BitVec 32
  c2 : BitVec 32
  c3 : BitVec 32
  c4 : BitVec 32
  deriving DecidableEq, Repr

/-- A packet that a fabric frame completes (R274): its link lane, its 32-byte header, least significant byte first, and its
payload. -/
structure FabPkt where
  lane    : Fin 4
  header  : BitVec 256
  payload : List Byte
  deriving DecidableEq, Repr

/-! ## Fields of engine instructions, as the words hold them (Tables 9-6 to 9-10) -/

/-- MMA (Table 9-6). -/
structure MmaF where
  acc : Bool
  init : Bool
  steps : BitVec 16
  cadence : BitVec 8
  lead : BitVec 4
  fmtRow : BitVec 4
  fmtCol : BitVec 4
  sclRow : Bool
  sclCol : Bool
  srcRow : Bool
  srcCol : Bool
  trans : Bool
  hbase : BitVec 3
  hoff : BitVec 23
  stride : BitVec 22
  deriving DecidableEq, Repr

/-- MDRN (Table 9-6). -/
structure MdrnF where
  acc : Bool
  dest : BitVec 3
  abase : BitVec 3
  aoff : BitVec 27
  fmt : BitVec 4
  rm : BitVec 2
  sat : Bool
  func : BitVec 4
  drop : Bool
  profile : BitVec 16
  deriving DecidableEq, Repr

/-- Lane instructions (Table 9-7). -/
structure LaneF where
  ty : BitVec 3
  vd : BitVec 6
  va : BitVec 6
  vb : BitVec 6
  vc : BitVec 6
  mask : BitVec 4
  bk : BitVec 2
  ck : BitVec 2
  sub : BitVec 4
  ext1 : BitVec 32
  ext2 : BitVec 32
  deriving DecidableEq, Repr

/-- VRED (Table 9-8). -/
structure VredF where
  ty : BitVec 3
  vd : BitVec 6
  va : BitVec 6
  mask : BitVec 4
  kind : BitVec 4
  dbase : BitVec 10
  s : BitVec 4
  emask : BitVec 4
  i8 : Bool
  deriving DecidableEq, Repr

/-- VCVT (Table 9-8). -/
structure VcvtF where
  dty : BitVec 3
  vd : BitVec 6
  va : BitVec 6
  mask : BitVec 4
  sty : BitVec 3
  rm : BitVec 2
  sat : Bool
  tid : BitVec 16
  draw : BitVec 3
  s : BitVec 4
  i : BitVec 3
  deriving DecidableEq, Repr

/-- VLD (Table 9-8). -/
structure VldF where
  ty : BitVec 3
  vd : BitVec 6
  base : BitVec 3
  off : BitVec 28
  space : BitVec 3
  fmt : BitVec 4
  scale : BitVec 8
  deriving DecidableEq, Repr

/-- VST (Table 9-8). -/
structure VstF where
  ld : VldF
  mask : BitVec 4
  rm : BitVec 2
  sat : Bool
  tid : BitVec 16
  draw : BitVec 3
  s : BitVec 4
  i : BitVec 3
  rows32 : BitVec 16
  deriving DecidableEq, Repr

/-- The block fields that VCHOL and VTRSM share (Table 9-9). -/
structure BlockF where
  base : BitVec 3
  block : BitVec 13
  stride : BitVec 13
  n : BitVec 7
  b : BitVec 6
  diag : BitVec 13
  deriving DecidableEq, Repr

/-- Scalar integer, compare, select and FP instructions (Table 9-10). -/
structure IntF where
  rd : BitVec 6
  ra : BitVec 6
  rb : BitVec 6
  rc : BitVec 6
  imm : Bool
  val : BitVec 19
  deriving DecidableEq, Repr

/-- SLD and SST (Table 9-10). -/
structure MemF where
  r : BitVec 6
  areg : BitVec 5
  size : BitVec 2
  sgn : Bool
  off : BitVec 30
  deriving DecidableEq, Repr

/-- XSTART (Table 9-10). -/
structure XstartF where
  xsel : Bool
  areg : BitVec 5
  off : BitVec 14
  due : BitVec 24
  deriving DecidableEq, Repr

/-- UUPD (Table 9-10). -/
structure UupdF where
  unit : BitVec 5
  sparse : Bool
  flags : BitVec 5
  group : BitVec 8
  shard : BitVec 16
  sreg : BitVec 6
  deriving DecidableEq, Repr

/-- USETC (Table 9-10). -/
structure UsetcF where
  unit : BitVec 5
  group : BitVec 8
  gcount : BitVec 8
  cmask : BitVec 16
  sreg : BitVec 6
  deriving DecidableEq, Repr

/-- Which flit NETWORK_FLIT_ARRIVAL delivers: the first on a reserved path whose phase has come, or the first of the dynamic classes that
has reached its endpoint (R253, R257). -/
inductive NetArrival where
  | scheduled
  | dynamic
  deriving DecidableEq, Repr

/-- The commands: one constructor per row of the command table. -/
inductive Instr where
  /-- IDENTIFY (R324). -/
  | identify (h : Hdr)
  /-- GET_STATUS (R324). -/
  | getStatus (h : Hdr)
  /-- CLAIM (R322). -/
  | claim (h : Hdr) (flags : Byte)
  /-- RELEASE (R322). -/
  | release (h : Hdr)
  /-- LOAD_IMAGE (R327). -/
  | loadImage (h : Hdr) (src length : Word) (r : HostRead)
  /-- VERIFY_IMAGE (R326). -/
  | verifyImage (h : Hdr) (src length : Word) (r : HostRead)
  /-- START (R328). -/
  | start (h : Hdr) (base : Word) (flags : Byte)
  /-- HALT (R329). -/
  | halt (h : Hdr)
  /-- RESUME (R330). -/
  | resume (h : Hdr)
  /-- ABORT (R331). -/
  | abort (h : Hdr)
  /-- SNAPSHOT_AT (R359). -/
  | snapshotAt (h : Hdr) (step sc dst : Word) (spaces : Byte)
  /-- RESTORE (R361). -/
  | restore (h : Hdr) (src length : Word) (r : HostRead)
  /-- SET_OPERATING_POINT (R294). -/
  | setOperatingPoint (h : Hdr) (op flags : Byte) (atTc : Word)
  /-- SET_POWER_LIMIT (R304). -/
  | setPowerLimit (h : Hdr) (limit : BitVec 16) (flags : Byte)
  /-- FENCE_ENGINE (R356). -/
  | fenceEngine (h : Hdr) (yard kind pos : Byte)
  /-- UNFENCE_ENGINE (R357). -/
  | unfenceEngine (h : Hdr) (yard kind pos : Byte)
  /-- SET_MEMBERSHIP (R279). -/
  | setMembership (h : Hdr) (epoch : BitVec 32) (devId tsrc : BitVec 16) (flags : Byte)
  /-- RESET_ALL (R281). -/
  | resetAll (h : Hdr) (epoch : BitVec 32) (devId tsrc : BitVec 16)
  /-- READ_REG (R325). -/
  | readReg (h : Hdr) (addr : Word)
  /-- WRITE_REG (R325). -/
  | writeReg (h : Hdr) (addr value : Word)
  /-- EXPERT_ENABLE (R11). -/
  | expertEnable (h : Hdr) (value : Word)
  /-- RETRAIN (R227). -/
  | retrain (h : Hdr) (unit : Fin 20) (value : Word)
  /-- RETRAIN_COMPLETE (R227). -/
  | retrainComplete (unit : Fin 20) (margin : Byte)
  /-- CLK_PD_CTL (R300). -/
  | clkPdCtl (h : Hdr) (value : Word)
  /-- POWER_DOMAIN_READY (R300). -/
  | powerDomainReady (pd : Fin 40)
  /-- READ_RECORDER (R367). -/
  | readRecorder (h : Hdr) (source slot : Byte) (first count : BitVec 32) (dst : Word)
  /-- CLEAR (R367). -/
  | clear (h : Hdr)
  /-- TRIGGER (R367). -/
  | trigger (h : Hdr) (value : Word)
  /-- DUMP (R368). -/
  | dump (h : Hdr)
  /-- SET_DUMP (R367). -/
  | setDump (h : Hdr) (value : Word)
  /-- GET_DUMP (R367). -/
  | getDump (h : Hdr)
  /-- READ_MONITOR (R371). -/
  | readMonitor (h : Hdr) (channel : Byte) (dst : Word)
  /-- CONFIG_MONITOR (R371). -/
  | configMonitor (h : Hdr) (channel flags : Byte) (cfg : Word) (limit : BitVec 32)
  /-- CLEAR_ONLY (R371). -/
  | clearOnly (h : Hdr) (channel : Byte)
  /-- FW_STAGE_BEGIN (R347). -/
  | fwStageBegin (h : Hdr) (src : Word) (r : HostRead)
  /-- FW_STAGE_DATA (R347). -/
  | fwStageData (h : Hdr) (src : Word) (length offset : BitVec 32) (r : HostRead)
  /-- FW_STAGE_COMMIT (R347). -/
  | fwStageCommit (h : Hdr)
  /-- FW_STATUS (R347). -/
  | fwStatus (h : Hdr)
  /-- WINDOW_MAP (R242). -/
  | windowMap (h : Hdr) (window : BitVec 16) (flags : Byte) (haddr length : Word)
  /-- WINDOW_UNMAP (R242). -/
  | windowUnmap (h : Hdr) (window : BitVec 16)
  /-- TRANSFER_RESUME (R246). -/
  | transferResume (h : Hdr) (engine : Byte) (c : Coords)
  /-- FABRIC_TRAIN (R270). -/
  | fabricTrain (h : Hdr) (ports : BitVec 32) (op width : Byte)
  /-- FABRIC_TAKE_DOWN (R270). -/
  | fabricTakeDown (h : Hdr) (ports : BitVec 32) (width : Byte)
  /-- LINK_STATUS (R270). -/
  | linkStatus (h : Hdr) (port : Byte)
  /-- TIME_SYNC_STATUS (R286). -/
  | timeSyncStatus (h : Hdr)
  /-- LONG_COMMAND_COMPLETE (R320). -/
  | longCommandComplete (r : HostRead)
  /-- LONG_COMMAND_TIMEOUT (R327). -/
  | longCommandTimeout
  /-- SQ_TAIL (R314). -/
  | sqTail (p : Port) (k : Fin 4) (value : Word)
  /-- RQ_HEAD (R315). -/
  | rqHead (p : Port) (k : Fin 4) (value : Word)
  /-- RING_ENABLE (R313). -/
  | ringEnable (p : Port) (rq : Bool) (k : Fin 4) (base value : Word)
  /-- RING_DISABLE (R313). -/
  | ringDisable (p : Port) (rq : Bool) (k : Fin 4)
  /-- BAR2_WRITE (R312). -/
  | bar2Write (p : Port) (offset : BitVec 28) (value : Word)
  /-- COMMAND_FETCH (R314). -/
  | commandFetch (p : Port) (ring : Fin 4) (packet : BitVec 512) (r : HostRead)
  /-- EVENT_DELIVERY (R333). -/
  | eventDelivery (p : Port)
  /-- RUN_FAULT (R352). -/
  | runFault
  /-- FUNCTION_LEVEL_RESET (R335). -/
  | functionLevelReset (p : Port)
  /-- PERST_N (R379). -/
  | perstN (p : Port) (low : Bool)
  /-- LINK_LOSS (R335). -/
  | linkLoss (p : Port)
  /-- CONFIGURATION_REQUEST (R310). -/
  | configurationRequest (p : Port) (q : CfgReq)
  /-- TRANSLATION_COMPLETION (R244). -/
  | translationCompletion (p : Port) (page : BitVec 52) (order : Fin 20) (read write : Bool)
  /-- PRG_RESPONSE (R244). -/
  | prgResponse (p : Port) (page : BitVec 52) (success : Bool)
  /-- INVALIDATE_REQUEST (R244). -/
  | invalidateRequest (p : Port) (page : BitVec 52) (order : Fin 20)
  /-- PRI_TIMEOUT (R244). -/
  | priTimeout (p : Port)
  /-- PCIE_COMPLETION (R243). -/
  | pcieCompletion (x : XEng) (idx : Fin 64) (r : HostRead)
  /-- ENTDAA (R336). -/
  | entdaa (addr : BitVec 7)
  /-- SET_ENDPOINT_ID (R336). -/
  | setEndpointId (eid : Byte)
  /-- GET_ENDPOINT_ID (R336). -/
  | getEndpointId
  /-- GET_MCTP_VERSION_SUPPORT (R336). -/
  | getMctpVersionSupport
  /-- GET_MESSAGE_TYPE_SUPPORT (R336). -/
  | getMessageTypeSupport
  /-- SIDEBAND_COMMAND_MESSAGE (R336). -/
  | sidebandCommandMessage (eid : Byte) (vendor : BitVec 16) (body : List Byte) (r : HostRead)
  /-- GET_VERSION (R345). -/
  | getVersion (p : Port)
  /-- GET_CAPABILITIES (R345). -/
  | getCapabilities (p : Port) (version : Byte)
  /-- NEGOTIATE_ALGORITHMS (R345). -/
  | negotiateAlgorithms (p : Port) (version : Byte) (asym hash : BitVec 32)
  /-- GET_DIGESTS (R345). -/
  | getDigests (p : Port) (version : Byte)
  /-- GET_CERTIFICATE (R344). -/
  | getCertificate (p : Port) (version : Byte) (slot : Byte) (offset length : BitVec 16)
  /-- CHALLENGE (R345). -/
  | challenge (p : Port) (version slot : Byte) (nonce : BitVec 256)
  /-- GET_MEASUREMENTS (R345). -/
  | getMeasurements (p : Port) (version op : Byte) (signed : Bool) (nonce : BitVec 256)
  /-- POWER_UP (R341). -/
  | powerUp
  /-- RESET_N (R341). -/
  | resetN
  /-- RESET_RELEASE (R341). -/
  | resetRelease (testMode : Bool)
  /-- POWER_LOSS (R383). -/
  | powerLoss
  /-- BOOT_STAGE_COMPLETE (R341). -/
  | bootStageComplete (ok : Bool) (present : BitVec 12) (modules : List (Option Spd)) (margins : BitVec 160) (lanes : BitVec 24)
  /-- WATCHDOG_EXPIRY (R337). -/
  | watchdogExpiry
  /-- MANAGEMENT_RESTART_COMPLETE (R337). -/
  | managementRestartComplete
  /-- MNOP (R180). -/
  | mnop (e : MEng)
  /-- MLOOP (R178). -/
  | mloop (e : MEng) (count : BitVec 16) (len : BitVec 12)
  /-- MSETB (R179). -/
  | msetb (e : MEng) (r : BitVec 3) (v : BitVec 32)
  /-- MADDB (R179). -/
  | maddb (e : MEng) (r : BitVec 3) (v : BitVec 32)
  /-- MMA (R75). -/
  | mma (e : MEng) (f : MmaF)
  /-- RESHAPE (R84). -/
  | reshape (e : MEng) (shape : BitVec 4)
  /-- RESHAPE_COMPLETE (R84). -/
  | reshapeComplete (e : MEng)
  /-- MDRN (R89). -/
  | mdrn (e : MEng) (f : MdrnF) (ecc : Ecc)
  /-- ARRAY_STEP (R75). -/
  | arrayStep (e : MEng) (ecc : Ecc)
  /-- BUBBLE (R78). -/
  | bubble (e : MEng)
  /-- MANGER_DELIVERY (R86). -/
  | mangerDelivery (e : MEng) (row : Bool) (read : Bool) (ecc : Ecc)
  /-- DRAIN_ROW (R89). -/
  | drainRow (e : MEng) (read : Bool) (ecc : Ecc)
  /-- CHECKSUM_VERDICT (R95). -/
  | checksumVerdict (e : MEng)
  /-- RESULT_DELIVERY (R26). -/
  | resultDelivery (err : RegErr)
  /-- VNOP (R180). -/
  | vnop (e : VEng)
  /-- VLOOP (R178). -/
  | vloop (e : VEng) (count : BitVec 16) (len : BitVec 12)
  /-- VSETB (R141). -/
  | vsetb (e : VEng) (r : BitVec 3) (v : BitVec 32)
  /-- VADDB (R141). -/
  | vaddb (e : VEng) (r : BitVec 3) (v : BitVec 32)
  /-- VADD (R143). -/
  | vadd (e : VEng) (f : LaneF)
  /-- VSUB (R143). -/
  | vsub (e : VEng) (f : LaneF)
  /-- VMUL (R143). -/
  | vmul (e : VEng) (f : LaneF)
  /-- VFMA (R143). -/
  | vfma (e : VEng) (f : LaneF)
  /-- VMAX (R143). -/
  | vmax (e : VEng) (f : LaneF)
  /-- VMIN (R143). -/
  | vmin (e : VEng) (f : LaneF)
  /-- VABS (R143). -/
  | vabs (e : VEng) (f : LaneF)
  /-- VNEG (R143). -/
  | vneg (e : VEng) (f : LaneF)
  /-- VCMP (R143). -/
  | vcmp (e : VEng) (f : LaneF)
  /-- VSEL (R143). -/
  | vsel (e : VEng) (f : LaneF)
  /-- VCVT (R148). -/
  | vcvt (e : VEng) (f : VcvtF)
  /-- VAND (R143). -/
  | vand (e : VEng) (f : LaneF)
  /-- VOR (R143). -/
  | vor (e : VEng) (f : LaneF)
  /-- VXOR (R143). -/
  | vxor (e : VEng) (f : LaneF)
  /-- VSHL (R143). -/
  | vshl (e : VEng) (f : LaneF)
  /-- VSHR (R143). -/
  | vshr (e : VEng) (f : LaneF)
  /-- VSRA (R143). -/
  | vsra (e : VEng) (f : LaneF)
  /-- VMAND (R143). -/
  | vmand (e : VEng) (f : LaneF)
  /-- VMOR (R143). -/
  | vmor (e : VEng) (f : LaneF)
  /-- VMXOR (R143). -/
  | vmxor (e : VEng) (f : LaneF)
  /-- VMNOT (R143). -/
  | vmnot (e : VEng) (f : LaneF)
  /-- VEXP2 (R144). -/
  | vexp2 (e : VEng) (f : LaneF)
  /-- VRCP (R144). -/
  | vrcp (e : VEng) (f : LaneF)
  /-- VLOG2 (R144). -/
  | vlog2 (e : VEng) (f : LaneF)
  /-- VRSQRT (R144). -/
  | vrsqrt (e : VEng) (f : LaneF)
  /-- VTANH (R144). -/
  | vtanh (e : VEng) (f : LaneF)
  /-- VSIG (R144). -/
  | vsig (e : VEng) (f : LaneF)
  /-- VERF (R144). -/
  | verf (e : VEng) (f : LaneF)
  /-- VSMX (R154). -/
  | vsmx (e : VEng) (f : LaneF)
  /-- VSMNORM (R154). -/
  | vsmnorm (e : VEng) (f : LaneF)
  /-- VSMREC (R154). -/
  | vsmrec (e : VEng) (f : LaneF)
  /-- VSMSTAT (R154). -/
  | vsmstat (e : VEng) (f : LaneF)
  /-- VRED (R152). -/
  | vred (e : VEng) (f : VredF)
  /-- VLD (R147). -/
  | vld (e : VEng) (f : VldF) (ecc : Ecc)
  /-- VST (R148). -/
  | vst (e : VEng) (f : VstF)
  /-- VREL (R151). -/
  | vrel (e : VEng) (slots : BitVec 4)
  /-- VCHOL (R155). -/
  | vchol (e : VEng) (f : BlockF) (md : BitVec 4) (delta : BitVec 32) (ecc : Ecc)
  /-- VTRSM (R156). -/
  | vtrsm (e : VEng) (f : BlockF) (trans : Bool) (k : BitVec 7) (ybase : BitVec 3) (y : BitVec 13) (ystride : BitVec 13) (ecc : Ecc)
  /-- SNOP (R180). -/
  | snop (e : SEng)
  /-- SLOOP (R178). -/
  | sloop (e : SEng) (count : BitVec 16) (len : BitVec 12)
  /-- SADD (R184). -/
  | sadd (e : SEng) (f : IntF)
  /-- SSUB (R184). -/
  | ssub (e : SEng) (f : IntF)
  /-- SMUL (R184). -/
  | smul (e : SEng) (f : IntF)
  /-- SAND (R184). -/
  | sand (e : SEng) (f : IntF)
  /-- SOR (R184). -/
  | sor (e : SEng) (f : IntF)
  /-- SXOR (R184). -/
  | sxor (e : SEng) (f : IntF)
  /-- SSHL (R184). -/
  | sshl (e : SEng) (f : IntF)
  /-- SSHR (R184). -/
  | sshr (e : SEng) (f : IntF)
  /-- SSRA (R184). -/
  | ssra (e : SEng) (f : IntF)
  /-- SCMP (R184). -/
  | scmp (e : SEng) (f : IntF)
  /-- SSEL (R184). -/
  | ssel (e : SEng) (f : IntF)
  /-- SLI (R185). -/
  | sli (e : SEng) (rd : BitVec 6) (imm : BitVec 32)
  /-- SLIH (R184). -/
  | slih (e : SEng) (rd : BitVec 6) (imm : BitVec 32)
  /-- SADDA (R185). -/
  | sadda (e : SEng) (ad : BitVec 5) (as : BitVec 5) (imm : BitVec 32)
  /-- SMOVA (R185). -/
  | smova (e : SEng) (ad : BitVec 5) (ra : BitVec 6)
  /-- SLD (R185). -/
  | sld (e : SEng) (f : MemF) (ecc : Ecc)
  /-- SST (R185). -/
  | sst (e : SEng) (f : MemF)
  /-- SFADD (R184). -/
  | sfadd (e : SEng) (f : IntF)
  /-- SFMUL (R184). -/
  | sfmul (e : SEng) (f : IntF)
  /-- SFFMA (R184). -/
  | sffma (e : SEng) (f : IntF)
  /-- SFCVT (R184). -/
  | sfcvt (e : SEng) (f : IntF)
  /-- SFRCP (R184). -/
  | sfrcp (e : SEng) (f : IntF)
  /-- SFRSQRT (R184). -/
  | sfrsqrt (e : SEng) (f : IntF)
  /-- XSTART (R186). -/
  | xstart (e : SEng) (f : XstartF) (ecc : Ecc)
  /-- UUPD (R187). -/
  | uupd (e : SEng) (f : UupdF)
  /-- USETC (R187). -/
  | usetc (e : SEng) (f : UsetcF)
  /-- URLS (R187). -/
  | urls (e : SEng) (unit : BitVec 5) (region : BitVec 16) (sreg : BitVec 6)
  /-- TRKCLR (R188). -/
  | trkclr (e : SEng) (entry : Byte) (base : Byte)
  /-- TRKRD (R188). -/
  | trkrd (e : SEng) (rd : BitVec 6) (entry : Byte) (word : BitVec 5)
  /-- SORG (R188). -/
  | sorg (e : SEng) (m : BitVec 4) (walk : Bool) (entry : Byte) (sreg : BitVec 6)
  /-- HORIZON_CHECK (R31). -/
  | horizonCheck
  /-- ITEM_COMPLETION (R31). -/
  | itemCompletion
  /-- FREEZE (R33). -/
  | freeze
  /-- HOLD_RELEASE (R35). -/
  | holdRelease
  /-- ENGINES_RESUME (R35). -/
  | enginesResume
  /-- ANCHOR_FREEZE (R46). -/
  | anchorFreeze
  /-- ANCHOR_EVALUATION (R46). -/
  | anchorEvaluation
  /-- SLIP_RESUME (R47). -/
  | slipResume
  /-- TIME_MARK (R43). -/
  | timeMark
  /-- RUN_END (R192). -/
  | runEnd
  /-- RING_INJECTION (R111). -/
  | ringInjection (yard : Fin 4) (ccw : Bool) (stop : Fin 3) (ecc : Ecc)
  /-- RING_DELIVERY (R104). -/
  | ringDelivery (e : MEng) (ccw : Bool) (ecc : Ecc)
  /-- FLIT_REMOVAL (R100). -/
  | flitRemoval (yard : Fin 4) (ccw : Bool) (slot : Fin 84)
  /-- REQUEST_ISSUE (R234). -/
  | requestIssue (x : XEng) (ctx : Fin 16) (ecc : Ecc)
  /-- REQUEST_COMPLETION (R220). -/
  | requestCompletion (x : XEng) (idx : Fin 64) (err : TierErr)
  /-- CONTEXT_GRANT (R234). -/
  | contextGrant (x : XEng)
  /-- DESCRIPTOR_COMPLETION (R235). -/
  | descriptorCompletion (x : XEng) (ctx : Fin 16)
  /-- CHUNK_PRESENTATION (R235). -/
  | chunkPresentation (x : XEng) (ctx : Fin 8) (ecc : Ecc)
  /-- STREAM_TILE_ISSUE (R237). -/
  | streamTileIssue (x : XEng) (place : Fin 64)
  /-- GRAD_DELIVERY (R235). -/
  | gradDelivery (x : XEng) (fixedCtx : Bool) (ctx : Fin 16) (ecc : Ecc)
  /-- HOST_WINDOW_FAULT (R245). -/
  | hostWindowFault (x : XEng) (ctx : Fin 16)
  /-- SCRUB (R213). -/
  | scrub (yard : Fin 4) (space : Fin 6) (pos : Fin 18) (bank : Fin 64) (word : Fin 16) (ecc : Ecc)
  /-- MEMORY_TEMPERATURE_READ (R224). -/
  | memoryTemperatureRead (unit : Fin 20) (temp : Byte)
  /-- ADDER_OUTPUT (R261). -/
  | adderOutput (yard : Fin 4) (router : Fin 48) (half : Bool) (ecc : Ecc)
  /-- BRIDGE_RESEND (R263). -/
  | bridgeResend (yard : Fin 4) (lane : Fin 12) (lost : Bool)
  /-- NETWORK_FLIT_ARRIVAL (R257). -/
  | networkFlitArrival (a : NetArrival) (ecc : Ecc)
  /-- UPDATE_COMMAND_ARRIVAL (R168). -/
  | updateCommandArrival (unit : Fin 20) (e : SEng)
  /-- UPDATE_START (R135). -/
  | updateStart (unit : Fin 20)
  /-- UPDATE_COMPLETION (R171). -/
  | updateCompletion (unit : Fin 20) (err : TierErr)
  /-- STASH_RELEASE (R137). -/
  | stashRelease (unit : Fin 20) (idx : Fin 16)
  /-- DROOP_STRETCH (R291). -/
  | droopStretch (region : Fin 16)
  /-- STRETCH_WINDOW_BOUNDARY (R293). -/
  | stretchWindowBoundary
  /-- OP_CHANGE_RAIL_WRITE (R295). -/
  | opChangeRailWrite
  /-- OP_CHANGE_CONFIRM_DEADLINE (R295). -/
  | opChangeConfirmDeadline
  /-- RELOCK_FREEZE (R296). -/
  | relockFreeze
  /-- DIVIDER_SWITCH (R296). -/
  | dividerSwitch
  /-- CLOCK_SETTLED (R296). -/
  | clockSettled
  /-- PLL_DRIFT (R297). -/
  | pllDrift (yard : Fin 4)
  /-- PLL_RELOCKED (R297). -/
  | pllRelocked (yard : Fin 4)
  /-- PLL_RELOCK_TIMEOUT (R297). -/
  | pllRelockTimeout (yard : Fin 4)
  /-- PLL_LOSS_OF_LOCK (R298). -/
  | pllLossOfLock (yard quad : Fin 4)
  /-- VOLTAGE_LOOP_TICK (R303). -/
  | voltageLoopTick
  /-- AVS_RAIL_FAULT (R302). -/
  | avsRailFault (region : Fin 16)
  /-- POWER_SAMPLE (R304). -/
  | powerSample (amps : BitVec 256) (other : BitVec 16)
  /-- POWER_LIMIT_STEP_DOWN (R305). -/
  | powerLimitStepDown
  /-- POWER_LIMIT_STEP_UP (R305). -/
  | powerLimitStepUp
  /-- THERMAL_THROTTLE_STEP (R306). -/
  | thermalThrottleStep
  /-- THERMAL_TRIP (R306). -/
  | thermalTrip
  /-- PORT_TRAINING_COMPLETE (R269). -/
  | portTrainingComplete (port : Fin 24) (lanes polarity : Byte) (reversed : Bool) (flight : BitVec 16) (peer : BitVec 10) (margin : Byte) (asym : BitVec 16)
  /-- PORT_DOWN (R273). -/
  | portDown (port : Fin 24)
  /-- FRAME_RECEIVED (R271). -/
  | frameReceived (port : Fin 24) (crcOk : Bool) (seq ack : BitVec 12) (withheld : BitVec 4) (fec : Byte) (packets : List FabPkt)
  /-- REPLAY_REQUEST (R271). -/
  | replayRequest (port : Fin 24) (seq : BitVec 12)
  /-- WRITE (R277). -/
  | write (n : Byte)
  /-- REDUCE (R283). -/
  | reduce (n : Byte)
  /-- FABRIC_NODE_UNIT (R283). -/
  | fabricNodeUnit (fnode : BitVec 16)
  /-- RESET (R281). -/
  | reset
  /-- LOCAL_RESET_COMPLETE (R281). -/
  | localResetComplete
  /-- TIME (R285). -/
  | time (port : Fin 24) (peerRx peerTx : BitVec 80) (hops : Byte)
  /-- TIME_HOLDOVER (R286). -/
  | timeHoldover
  /-- SNAPSHOT_FREEZE (R359). -/
  | snapshotFreeze
  /-- SNAPSHOT_WRITE (R359). -/
  | snapshotWrite
  /-- SNAPSHOT_WRITE_COMPLETE (R360). -/
  | snapshotWriteComplete (ok : Bool)
  /-- RECORDER_TRIGGER (R364). -/
  | recorderTrigger (source : BitVec 6) (unit : BitVec 16)
  /-- RECORD_WRITE (R364). -/
  | recordWrite
  /-- DUMP_START (R368). -/
  | dumpStart
  /-- DUMP_COMPLETE (R368). -/
  | dumpComplete
  /-- MONITOR_SAMPLE (R370). -/
  | monitorSample (source unit : Byte) (value : BitVec 64)
  /-- READ_THRESHOLD_ADAPTATION (R227). -/
  | readThresholdAdaptation (unit : Fin 20) (margin : Byte)
  /-- PATROL_SCRUB (R226). -/
  | patrolScrub (addr : BitVec 48) (err : TierErr)
  /-- POWER_STRETCH (R305). -/
  | powerStretch
  /-- RAIL_LOWERING (R295). -/
  | railLowering
  /-- FLASH_PROGRAM_COMPLETE (R347). -/
  | flashProgramComplete
  /-- PCIE_LINK_TRAINED (R301). -/
  | pcieLinkTrained (p : Port)
  /-- MSIX_VECTOR_UNMASK (R334). -/
  | msixVectorUnmask (p : Port) (v : Fin 64)
  /-- SIDEBAND_EVENT_READ (R336). -/
  | sidebandEventRead
  deriving DecidableEq, Repr

end Sys2Proof
end

