-- ==== Sys2Proof/Decode.lean ====
section
/-! DEFINITION. The words of the command table. No row of it gives bits, so no word spells a command; the words of the engine
instructions, which the part reads from a loaded image, are in Sys2Proof/Machine/Words.lean. -/
namespace Sys2Proof

/-- The command a word of the table spells: none, since no row of the table gives bits. -/
def decodeTableWord (_nbits _w : Nat) : Option Instr := none

end Sys2Proof
end

