-- ==== Sys2Proof/Config.lean ====
section
/-! DEFINITION. What the spec leaves open: free values. Each is an opaque constant with no body, applied to the operands it
depends on or to a fresh number, so that nothing can be proved about the value it takes. Every one is named in a log entry. -/
namespace Sys2Proof

/-- A fresh undefined value: its number (R3, R26; log entry 9). -/
opaque Config.freeWord : Nat → Nat

/-- A fresh undefined truth value (R3; log entry 9). -/
opaque Config.freeBool : Nat → Bool

/-- Contents of a register that START leaves undefined: generation of the START, which register, which word of it
(R141, R179, R184; log entry 4). -/
opaque Config.freeReg : Nat → Nat → Nat → Nat

/-- SM3 digest of a byte string, 32 bytes (GB/T 32905, R388; log entry 11). -/
opaque Config.sm3 : List Nat → List Nat

/-- Whether an SM2 signature (r then s) over a message verifies with a public key (GB/T 32918, R388; log entry 11). -/
opaque Config.sm2Verifies : List Nat → List Nat → List Nat → Bool

/-- The ROM firmware public keys 0 to 3 and their key identifiers (R340; log entry 11). -/
opaque Config.romKey : Nat → List Nat
opaque Config.romKeyId : Nat → Nat

/-- SM3 digest of the boot ROM and of the part record region, as SPDM reports them (Table 17-5; log entry 11). -/
opaque Config.bootRomDigest : List Nat
opaque Config.partRecordDigest : List Nat

/-- The certificate chain of slot 0 and the identity public key (R343, R344; log entry 11). -/
opaque Config.certificateChain : List Nat
opaque Config.identityKey : List Nat

/-- A signature the identity key makes over an SPDM transcript (R345; log entry 11). -/
opaque Config.spdmSignature : Nat → List Nat → List Nat

/-- The vendor ID assigned to Stolcon (R310; log entry 12). -/
opaque Config.vendorId : Nat

/-- Message address and data that a host has put into an MSI-X table entry of a port (Table 16-2; log entry 12). -/
opaque Config.msixEntry : Nat → Nat → Nat

/-- The bytes of a snapshot state block, whose layout is Stolcon's (R360; log entry 20). -/
opaque Config.stateBlockByte : Nat → Nat → Nat

/-- The length in bytes of a snapshot state block (R360; log entry 20). -/
opaque Config.stateBlockLen : Nat → Nat

/-- STATE_VER that a firmware version writes, and whether a firmware version reads a STATE_VER of another (R360, R361; log
entry 20). -/
opaque Config.stateVer : Nat → Nat
opaque Config.readsStateVer : Nat → Nat → Bool

/-- Error of an approximated function, in units that its rule bounds: function number and operand bits
(R90, R124, R144; log entry 10). -/
opaque Config.approx : Nat → Nat → Nat

end Sys2Proof
end

