-- ==== Sys2Proof/Machine/Bits.lean ====
section
/-! DEFINITION. Bit fields, sign extension and byte order: the helpers every other file takes its fields with. -/
namespace Sys2Proof.Machine

/-- Bits hi:lo of a natural number. -/
def bits (w hi lo : Nat) : Nat := (w >>> lo) % 2 ^ (hi + 1 - lo)

/-- One bit of a natural number. -/
def bit (w i : Nat) : Bool := (w >>> i) % 2 == 1

/-- `w` with bits hi:lo replaced by the low bits of `v`. -/
def putBits (w hi lo v : Nat) : Nat :=
  (w >>> (hi + 1)) <<< (hi + 1) + (v % 2 ^ (hi + 1 - lo)) <<< lo + w % 2 ^ lo

/-- The number of a Boolean, as a register bit shows it. -/
def b2n (b : Bool) : Nat := if b then 1 else 0

/-- The low `n` bits of `v` read as a two's-complement number. -/
def signed (n v : Nat) : Int :=
  let u := v % 2 ^ n
  if u < 2 ^ (n - 1) then (u : Int) else (u : Int) - (2 ^ n : Nat)

/-- The low `n` bits of an integer. -/
def wrap (n : Nat) (x : Int) : Nat := (x % (2 ^ n : Nat)).toNat

/-- The `n` bytes of `v`, least significant first (R6). -/
def leBytes : Nat → Nat → List Nat
  | 0, _ => []
  | n + 1, v => v % 256 :: leBytes n (v / 256)

/-- The number whose bytes, least significant first, are the list (R6). -/
def leNat : List Nat → Nat
  | [] => 0
  | b :: bs => b % 256 + 256 * leNat bs

/-- Number of one bits among the low `n` bits. -/
def popCount : Nat → Nat → Nat
  | 0, _ => 0
  | n + 1, v => v % 2 + popCount n (v / 2)

/-- Exclusive or of the low `n` bits. -/
def parity (n v : Nat) : Nat := popCount n v % 2

/-- Position of the lowest set bit among the low `n`, if any. -/
def lowestBit (n v : Nat) : Option Nat := (List.range n).find? fun i => bit v i

/-- Ceiling of a quotient. -/
def ceilDiv (a b : Nat) : Nat := (a + b - 1) / b

/-- Element `i` of a list, with a default outside it. -/
def nth {α : Type} (d : α) (l : List α) (i : Nat) : α := l.getD i d

/-- A list with element `i` replaced, where it has one. -/
def setNth {α : Type} (l : List α) (i : Nat) (a : α) : List α := l.set i a

end Sys2Proof.Machine
end

