-- ==== Sys2Proof/Machine/Mesh.lean ====
section
/-! DEFINITION. The routers of a yard and what attaches to them (R250, R251, Tables 13-1 and 13-2), and the healthy routes of
R254. -/
namespace Sys2Proof.Machine

/-- Endpoint codes: M k, V 16 + k, S 24 + k, X 32 + k, YP 40 + k, H 48 + k, D 52 + k, fabric port 56 + k, BX 64 + k, BY 72 + k. -/
def attachRow0 : List (List Nat) := [[], [0], [1], [2], [4], [5], [6], [56, 64]]
def attachRow1 : List (List Nat) := [[16], [17, 40], [18], [3], [7], [19, 42], [20], [57, 65]]
def attachRow2 : List (List Nat) := [[48], [24, 32], [25, 33], [41], [43], [26, 34], [35, 49], [52, 66]]
def attachRow3 : List (List Nat) := [[53], [38], [39], [46], [44], [27, 36], [37, 50], [58, 67]]
def attachRow4 : List (List Nat) := [[23], [47], [60], [13], [8], [21, 45], [22], [59, 68]]
def attachRow5 : List (List Nat) := [[61, 72], [14, 73], [15, 74], [75], [9, 76], [10, 77], [11], [12, 69]]

/-- The endpoints of each router, in router-index order (Table 13-2). -/
def attach : List (List Nat) := [attachRow0, attachRow1, attachRow2, attachRow3, attachRow4, attachRow5].flatten

/-- Local ports an endpoint takes (R251). -/
def portsOf (c : Nat) : Nat := if c < 24 then 2 else 1

/-- The endpoint behind a local port of a router, and which of its ports it is (R251). -/
def endpointGo : List Nat → Nat → Option (Nat × Nat)
  | [], _ => none
  | c :: cs, p => if p < portsOf c then some (c, p) else endpointGo cs (p - portsOf c)
def endpointAt (router port : Nat) : Option (Nat × Nat) :=
  if port < 4 ∨ port > 7 then none else endpointGo (nth [] attach router) (port - 4)

/-- First local port of an endpoint among a router's endpoints. -/
def portGo : List Nat → Nat → Nat → Option Nat
  | [], _, _ => none
  | x :: xs, c, p => if x = c then some p else portGo xs c (p + portsOf x)

/-- Router of an endpoint, and its first local port (Table 13-2). -/
def placeOf (c : Nat) : Option (Nat × Nat) :=
  (List.range 48).findSome? fun n => (portGo (nth [] attach n) c 4).map fun p => (n, p)

/-- The router next to `n` behind an output port (Table 13-1); none where the direction leaves the mesh. -/
def neighbour (n port : Nat) : Option Nat :=
  let c := n % 8
  let r := n / 8
  if port = 0 then (if r = 0 then none else some (n - 8))
  else if port = 1 then (if c = 7 then none else some (n + 1))
  else if port = 2 then (if r = 5 then none else some (n + 8))
  else if port = 3 then (if c = 0 then none else some (n - 1))
  else none

/-- The input port of the neighbour that a link output leads to: a link to the east enters from the west, and so on. -/
def oppositePort (port : Nat) : Nat := (port + 2) % 4

/-- The yard across a bridge: BX joins Y0–Y1 and Y2–Y3, BY joins Y0–Y2 and Y1–Y3 (R251). -/
def bxYard (y : Nat) : Nat := if y % 2 = 0 then y + 1 else y - 1
def byYard (y : Nat) : Nat := if y < 2 then y + 2 else y - 2

/-- Output port of router `n` towards router `t`, column first, then row (R254); the router's own first local port where it
has arrived (log entry 24). -/
def portTowards (n t : Nat) : Nat :=
  if t % 8 > n % 8 then 1 else if t % 8 < n % 8 then 3
  else if t / 8 > n / 8 then 2 else if t / 8 < n / 8 then 0 else 4

/-- Output port towards a bridge lane: its router, then its local port (R254). -/
def portToLane (n lane : Nat) : Nat :=
  match placeOf lane with
  | some (t, p) => if n = t then p else portTowards n t
  | none => 0

/-- Healthy output port of router `n` for a destination of NOC_ROUTE (R254, Table 13-12): routers, then the BX neighbour, the
BY neighbour and the diagonal yard, which goes through the BX neighbour unless `diagBy`. -/
def healthyPort (diagBy : Bool) (n dest : Nat) : Nat :=
  let bx := portToLane n (64 + n / 8)
  let by_ := portToLane n (72 + min (n % 8) 5)
  if dest < 48 then portTowards n dest
  else if dest = 48 then bx else if dest = 49 then by_
  else if dest = 50 then (if diagBy then by_ else bx) else 0

/-- NOC_ROUTE word `j` of router `n`: destinations 16j to 16j + 15, four bits each. -/
def routeWord (port : Nat → Nat) (j : Nat) : Nat :=
  leNat ((List.range 8).map fun i => port (16 * j + 2 * i) + 16 * port (16 * j + 2 * i + 1))

end Sys2Proof.Machine
end

