-- ==== Sys2Proof/Machine/RegTable.lean ====
section
/-! DEFINITION. The control space (R7 to R10): every register with its offset, array dimensions and fields, as the
tables of its block give them. A bit that no field covers is reserved (R9). The reset column is that of R7, the value
on entry to READY; a reset value the spec marks `x`, or takes from the part record, is named in log entries 2 and 3. -/
namespace Sys2Proof.Machine

/-- Access of a register field (R8). -/
inductive Access where
  | ro  -- read only
  | rw  -- read and write
  | w1c -- writing 1 clears
  | wo  -- write only, reads 0
  deriving DecidableEq, Repr

/-- The registers of the control space, one name per row of the block tables (R10). -/
inductive RegName where
  | rDEV_IDENT | rDEV_SERIAL | rDEV_CTL | rHST_CTL | rHST_STATE | rHST_SEQ
  | rHST_CMDS | rHST_EVENTS_LOST | rHST_BAR2_WR_CNT | rHST_WDOG_CNT | rSCH_CTL | rSCH_SC
  | rSCH_TC | rSCH_HOLD_STAT | rSCH_HOLD_FREEZE | rSCH_HOLD_LEN | rSCH_HOLD_TOTAL | rSCH_HOLD_CNT
  | rSCH_SB_USE | rSCH_VIOL_STAT | rSCH_VIOL_SC | rSCH_NATIVE | rSCH_PAD | rSCH_RUN_BASE
  | rSCH_MARK_SC | rSCH_SLIP_EVENTS | rSCH_SLIP_MARKS | rSCH_SLIP_LAST | rCLK_CTL | rCLK_OP
  | rCLK_OP_AT | rCLK_PL | rCLK_PL_CTL | rCLK_THERM | rCLK_PD_CTL | rCLK_PD_STAT
  | rCLK_STRETCH_CTL | rCLK_REGION | rCLK_AVS | rCLK_PLL | rCLK_STRETCH_CNT | rCLK_PACE_CNT
  | rCLK_MISS_CNT | rCLK_OPCHG_CNT | rCLK_RELOCK_CNT | rCLK_THROTTLE_MS | rCLK_AVS_ERR_CNT | rNOC_CTL
  | rNOC_CFG | rNOC_FAILED | rNOC_BRIDGE | rNOC_LAT_MAX | rNOC_P0_FLITS | rNOC_P1_FLITS
  | rNOC_P2_FLITS | rNOC_ADD_FLITS | rNOC_BR_RETRY | rNOC_DETOUR_FLITS | rNOC_ROUTE | rFAB_CTL
  | rFAB_ID | rFAB_TIME_STAT | rFAB_TIME_OFS | rFAB_PORT_STAT | rFAB_PORT_EQ | rFAB_PCNT
  | rFAB_DROP_CNT | rFAB_LAND_CNT | rFAB_NOROUTE_CNT | rFAB_TIME_EXCH | rFAB_RED_UNITS | rFAB_ROUTE
  | rFAB_RSTAGE | rMEM_CTL | rMEM_STAT | rMEM_CAL | rMEM_ECC_CE | rMEM_ECC_UE
  | rMEM_ECC_UE_SC | rMEM_LAT_MAX | rMEM_RD_BYTES | rMEM_WR_BYTES | rMEM_CE_CNT | rMEM_UE_CNT
  | rMEM_ODECC_CNT | rMEM_R2X_US | rUPD_CTL | rUPD_STAT | rUPD_FAULT | rUPD_FAULT_POS
  | rUPD_PARAMS | rUPD_CMDS | rUPD_SETCOEF_CNT | rUPD_BUSY | rUPD_GCFG | rUPD_GSTAT
  | rUPD_COEF | rUPD_TAG | rXFR_CTL | rXFR_STAT | rXFR_FAULT | rXFR_FAULT_C01
  | rXFR_FAULT_C23 | rXFR_FAULT_C4 | rXFR_FAULT_HADDR | rXFR_BYTES | rXFR_DESCS | rXFR_PRI_CNT
  | rXFR_LOST_CNT | rXFR_WIN_BASE | rXFR_WIN_CFG | rREC_CTL | rREC_STAT | rREC_FAULT
  | rREC_FAULT_SC | rREC_BOUNDS_ADDR | rREC_OVF_ADDR | rREC_TRIG_EN | rREC_TRIG_SET | rREC_FENCE
  | rREC_LOST_CNT | rREC_LOGIC_CE_CNT | rREC_LOGIC_UE_CNT | rREC_BOUNDS_CNT | rREC_SET | rREC_RECORD
  | rMON_CFG | rMON_LIMIT | rMON_MINMAX | rMON_SAMPLES | rMON_BIN | rENG_MCTL
  | rENG_MTOL | rENG_MSTAT | rENG_MSDC | rENG_MSDC_SC | rENG_MMANGER | rENG_MSIDE
  | rENG_MSTEPS | rENG_MBUBBLE | rENG_MCONFLICT | rENG_MSDC_CNT | rENG_MSKIP_CNT | rENG_VCTL
  | rENG_VSTAT | rENG_VSLOT | rENG_VPOS | rENG_VISSUE | rENG_VCHOL_CNT | rENG_VEMPTY_CNT
  | rRING_MAP | rRING_REST | rRING_STAT | rRING_VFAULT | rRING_VFAULT_SC | rRING_FLITS_CW
  | rRING_FLITS_CCW | rRING_DISCARD | rTRK_CFG | rTRK_AMAX | rTRK_BIN | rOCM_CTL
  | rOCM_ECC_CE | rOCM_ECC_UE | rOCM_ECC_UE_SC | rOCM_CE_CNT | rOCM_UE_CNT | rOCM_YS_CONFLICT
  | rOCM_NET_WAIT | rOCM_SCRUB_PASSES | rOCM_FENCED_DROP | rOCM_STALL | rSEC_BOOT | rSEC_FW
  | rSEC_LOFT | rSEC_ID | rSEC_SETTINGS | rSEC_IDPUB | rSEC_IMGKEY | rSEC_SPDM_CNT
  | rSEC_SPDM_ERR_CNT
  deriving DecidableEq, Repr

/-- A field of a register: its bits, access (R8), level (R11) and value at reset (R7). -/
structure Field where
  reg    : RegName
  hi     : Nat
  lo     : Nat
  acc    : Access
  expert : Bool
  reset  : Nat
  deriving DecidableEq, Repr

def fDEV_IDENT_STEPPING : Field := ⟨.rDEV_IDENT, 39, 32, .ro, false, 0⟩
def fDEV_IDENT_PART : Field := ⟨.rDEV_IDENT, 31, 0, .ro, false, 0x54344456⟩
def fDEV_SERIAL_SERIAL : Field := ⟨.rDEV_SERIAL, 63, 0, .ro, false, 0⟩
def fDEV_CTL_EXPERT_ENABLE : Field := ⟨.rDEV_CTL, 0, 0, .rw, false, 0⟩
def fHST_CTL_WDOG_EVENT : Field := ⟨.rHST_CTL, 16, 16, .rw, false, 1⟩
def fHST_CTL_CMD_TIMEOUT_MS : Field := ⟨.rHST_CTL, 15, 0, .rw, false, 1000⟩
def fHST_STATE_LAST_FAULT : Field := ⟨.rHST_STATE, 55, 48, .ro, false, 0⟩
def fHST_STATE_FW_READY : Field := ⟨.rHST_STATE, 39, 39, .ro, false, 1⟩
def fHST_STATE_LONG : Field := ⟨.rHST_STATE, 38, 38, .ro, false, 0⟩
def fHST_STATE_CLAIM : Field := ⟨.rHST_STATE, 35, 34, .ro, false, 0⟩
def fHST_STATE_STATE : Field := ⟨.rHST_STATE, 2, 0, .ro, false, 2⟩
def fHST_SEQ_VALUE : Field := ⟨.rHST_SEQ, 63, 0, .ro, false, 0⟩
def fHST_CMDS_COUNT : Field := ⟨.rHST_CMDS, 47, 0, .ro, false, 0⟩
def fHST_EVENTS_LOST_COUNT : Field := ⟨.rHST_EVENTS_LOST, 47, 0, .ro, false, 0⟩
def fHST_BAR2_WR_CNT_COUNT : Field := ⟨.rHST_BAR2_WR_CNT, 47, 0, .ro, false, 0⟩
def fHST_WDOG_CNT_COUNT : Field := ⟨.rHST_WDOG_CNT, 47, 0, .ro, false, 0⟩
def fSCH_CTL_SLIP_HALT : Field := ⟨.rSCH_CTL, 1, 1, .rw, false, 0⟩
def fSCH_CTL_HOLD_EVENT : Field := ⟨.rSCH_CTL, 0, 0, .rw, false, 0⟩
def fSCH_SC_VALUE : Field := ⟨.rSCH_SC, 63, 0, .ro, false, 0⟩
def fSCH_TC_VALUE : Field := ⟨.rSCH_TC, 63, 0, .ro, false, 0⟩
def fSCH_HOLD_STAT_HELD : Field := ⟨.rSCH_HOLD_STAT, 63, 63, .ro, false, 0⟩
def fSCH_HOLD_STAT_PENDING : Field := ⟨.rSCH_HOLD_STAT, 62, 62, .ro, false, 0⟩
def fSCH_HOLD_STAT_RELEASING : Field := ⟨.rSCH_HOLD_STAT, 61, 61, .ro, false, 0⟩
def fSCH_HOLD_STAT_PRI : Field := ⟨.rSCH_HOLD_STAT, 50, 50, .ro, false, 0⟩
def fSCH_HOLD_STAT_RETRY : Field := ⟨.rSCH_HOLD_STAT, 49, 49, .ro, false, 0⟩
def fSCH_HOLD_STAT_REFRESH2X : Field := ⟨.rSCH_HOLD_STAT, 48, 48, .ro, false, 0⟩
def fSCH_HOLD_STAT_CAUSE_SET : Field := ⟨.rSCH_HOLD_STAT, 47, 32, .ro, false, 0⟩
def fSCH_HOLD_STAT_CAUSE : Field := ⟨.rSCH_HOLD_STAT, 3, 0, .ro, false, 0⟩
def fSCH_HOLD_FREEZE_VALUE : Field := ⟨.rSCH_HOLD_FREEZE, 63, 0, .ro, false, 0⟩
def fSCH_HOLD_LEN_COUNT : Field := ⟨.rSCH_HOLD_LEN, 47, 0, .ro, false, 0⟩
def fSCH_HOLD_TOTAL_COUNT : Field := ⟨.rSCH_HOLD_TOTAL, 47, 0, .ro, false, 0⟩
def fSCH_HOLD_CNT_COUNT : Field := ⟨.rSCH_HOLD_CNT, 47, 0, .ro, false, 0⟩
def fSCH_SB_USE_PEAK : Field := ⟨.rSCH_SB_USE, 42, 32, .ro, false, 0⟩
def fSCH_SB_USE_CURRENT : Field := ⟨.rSCH_SB_USE, 10, 0, .ro, false, 0⟩
def fSCH_VIOL_STAT_VALID : Field := ⟨.rSCH_VIOL_STAT, 63, 63, .w1c, false, 0⟩
def fSCH_VIOL_STAT_MORE : Field := ⟨.rSCH_VIOL_STAT, 62, 62, .ro, false, 0⟩
def fSCH_VIOL_STAT_CAUSE : Field := ⟨.rSCH_VIOL_STAT, 51, 48, .ro, false, 0⟩
def fSCH_VIOL_STAT_YARD : Field := ⟨.rSCH_VIOL_STAT, 47, 46, .ro, false, 0⟩
def fSCH_VIOL_STAT_KIND : Field := ⟨.rSCH_VIOL_STAT, 45, 44, .ro, false, 0⟩
def fSCH_VIOL_STAT_POS : Field := ⟨.rSCH_VIOL_STAT, 43, 39, .ro, false, 0⟩
def fSCH_VIOL_SC_VALUE : Field := ⟨.rSCH_VIOL_SC, 63, 0, .ro, false, 0⟩
def fSCH_NATIVE_LATENCIES : Field := ⟨.rSCH_NATIVE, 63, 0, .ro, false, 0⟩
def fSCH_PAD_PADS : Field := ⟨.rSCH_PAD, 63, 0, .ro, false, 0⟩
def fSCH_RUN_BASE_VALUE : Field := ⟨.rSCH_RUN_BASE, 63, 0, .ro, false, 0⟩
def fSCH_MARK_SC_VALUE : Field := ⟨.rSCH_MARK_SC, 63, 0, .ro, false, 0⟩
def fSCH_SLIP_EVENTS_COUNT : Field := ⟨.rSCH_SLIP_EVENTS, 47, 0, .ro, false, 0⟩
def fSCH_SLIP_MARKS_COUNT : Field := ⟨.rSCH_SLIP_MARKS, 47, 0, .ro, false, 0⟩
def fSCH_SLIP_LAST_VALUE : Field := ⟨.rSCH_SLIP_LAST, 63, 0, .ro, false, 0⟩
def fCLK_CTL_MISSED_EVENT : Field := ⟨.rCLK_CTL, 3, 3, .rw, false, 1⟩
def fCLK_CTL_THROTTLE_EVENT : Field := ⟨.rCLK_CTL, 2, 2, .rw, false, 1⟩
def fCLK_CTL_OPCHG_EVENT : Field := ⟨.rCLK_CTL, 1, 1, .rw, false, 0⟩
def fCLK_CTL_AVS_EVENT : Field := ⟨.rCLK_CTL, 0, 0, .rw, false, 1⟩
def fCLK_OP_PENDING : Field := ⟨.rCLK_OP, 63, 63, .ro, false, 0⟩
def fCLK_OP_FAIL : Field := ⟨.rCLK_OP, 62, 62, .w1c, false, 0⟩
def fCLK_OP_REQ : Field := ⟨.rCLK_OP, 26, 24, .ro, false, 0⟩
def fCLK_OP_TARGET : Field := ⟨.rCLK_OP, 18, 16, .ro, false, 0⟩
def fCLK_OP_LOOP : Field := ⟨.rCLK_OP, 10, 8, .ro, false, 0⟩
def fCLK_OP_CURRENT : Field := ⟨.rCLK_OP, 2, 0, .ro, false, 0⟩
def fCLK_OP_AT_VALUE : Field := ⟨.rCLK_OP_AT, 63, 0, .ro, false, 0⟩
def fCLK_PL_MEASURED : Field := ⟨.rCLK_PL, 63, 48, .ro, false, 0⟩
def fCLK_PL_BOARD_CAP : Field := ⟨.rCLK_PL, 47, 32, .ro, false, 3000⟩
def fCLK_PL_LIMIT : Field := ⟨.rCLK_PL, 15, 0, .ro, false, 2600⟩
def fCLK_PL_CTL_LOOP_OFF : Field := ⟨.rCLK_PL_CTL, 8, 8, .rw, true, 0⟩
def fCLK_PL_CTL_TAU_MS : Field := ⟨.rCLK_PL_CTL, 7, 0, .rw, true, 1⟩
def fCLK_THERM_TJ_MAX : Field := ⟨.rCLK_THERM, 63, 56, .ro, false, 0⟩
def fCLK_THERM_THROTTLE_C : Field := ⟨.rCLK_THERM, 47, 40, .rw, true, 100⟩
def fCLK_THERM_TRIP : Field := ⟨.rCLK_THERM, 2, 2, .w1c, false, 0⟩
def fCLK_THERM_MEM_HOT : Field := ⟨.rCLK_THERM, 1, 1, .ro, false, 0⟩
def fCLK_THERM_THROTTLING : Field := ⟨.rCLK_THERM, 0, 0, .ro, false, 0⟩
def fCLK_PD_CTL_ON : Field := ⟨.rCLK_PD_CTL, 39, 0, .rw, false, 0⟩
def fCLK_PD_STAT_ON : Field := ⟨.rCLK_PD_STAT, 39, 0, .ro, false, 0⟩
def fCLK_STRETCH_CTL_THRESH_OFS : Field := ⟨.rCLK_STRETCH_CTL, 7, 0, .rw, true, 0⟩
def fCLK_REGION_PACE_LAST : Field := ⟨.rCLK_REGION, 47, 40, .ro, false, 0⟩
def fCLK_REGION_STRETCH_LAST : Field := ⟨.rCLK_REGION, 39, 32, .ro, false, 0⟩
def fCLK_REGION_MISSED : Field := ⟨.rCLK_REGION, 8, 8, .w1c, false, 0⟩
def fCLK_REGION_SKEW_MAX : Field := ⟨.rCLK_REGION, 7, 0, .ro, false, 0⟩
def fCLK_AVS_FAULT : Field := ⟨.rCLK_AVS, 63, 63, .w1c, false, 0⟩
def fCLK_AVS_FREEZE : Field := ⟨.rCLK_AVS, 62, 62, .rw, true, 0⟩
def fCLK_AVS_IOUT : Field := ⟨.rCLK_AVS, 47, 32, .ro, false, 0⟩
def fCLK_AVS_OFS : Field := ⟨.rCLK_AVS, 23, 16, .rw, true, 0⟩
def fCLK_AVS_VOUT : Field := ⟨.rCLK_AVS, 15, 0, .ro, false, 0⟩
def fCLK_PLL_LOCKED : Field := ⟨.rCLK_PLL, 63, 63, .ro, false, 0⟩
def fCLK_PLL_FAIL : Field := ⟨.rCLK_PLL, 62, 62, .w1c, false, 0⟩
def fCLK_PLL_DIVIDER : Field := ⟨.rCLK_PLL, 15, 8, .ro, false, 12⟩
def fCLK_STRETCH_CNT_COUNT : Field := ⟨.rCLK_STRETCH_CNT, 47, 0, .ro, false, 0⟩
def fCLK_PACE_CNT_COUNT : Field := ⟨.rCLK_PACE_CNT, 47, 0, .ro, false, 0⟩
def fCLK_MISS_CNT_COUNT : Field := ⟨.rCLK_MISS_CNT, 47, 0, .ro, false, 0⟩
def fCLK_OPCHG_CNT_COUNT : Field := ⟨.rCLK_OPCHG_CNT, 47, 0, .ro, false, 0⟩
def fCLK_RELOCK_CNT_COUNT : Field := ⟨.rCLK_RELOCK_CNT, 47, 0, .ro, false, 0⟩
def fCLK_THROTTLE_MS_COUNT : Field := ⟨.rCLK_THROTTLE_MS, 47, 0, .ro, false, 0⟩
def fCLK_AVS_ERR_CNT_COUNT : Field := ⟨.rCLK_AVS_ERR_CNT, 47, 0, .ro, false, 0⟩
def fNOC_CTL_RETRY_EVENT : Field := ⟨.rNOC_CTL, 1, 1, .rw, false, 0⟩
def fNOC_CTL_FAIL_EVENT : Field := ⟨.rNOC_CTL, 0, 0, .rw, false, 1⟩
def fNOC_CFG_DIAG : Field := ⟨.rNOC_CFG, 16, 16, .ro, false, 0⟩
def fNOC_CFG_PERIOD : Field := ⟨.rNOC_CFG, 12, 0, .ro, false, 0⟩
def fNOC_FAILED_ROUTER : Field := ⟨.rNOC_FAILED, 47, 0, .ro, false, 0⟩
def fNOC_BRIDGE_LOST : Field := ⟨.rNOC_BRIDGE, 16, 16, .w1c, false, 0⟩
def fNOC_BRIDGE_BY_UP : Field := ⟨.rNOC_BRIDGE, 13, 8, .ro, false, 0⟩
def fNOC_BRIDGE_BX_UP : Field := ⟨.rNOC_BRIDGE, 5, 0, .ro, false, 0⟩
def fNOC_LAT_MAX_P2_MAX : Field := ⟨.rNOC_LAT_MAX, 63, 32, .ro, false, 0⟩
def fNOC_LAT_MAX_P0_MAX : Field := ⟨.rNOC_LAT_MAX, 31, 0, .ro, false, 0⟩
def fNOC_P0_FLITS_COUNT : Field := ⟨.rNOC_P0_FLITS, 47, 0, .ro, false, 0⟩
def fNOC_P1_FLITS_COUNT : Field := ⟨.rNOC_P1_FLITS, 47, 0, .ro, false, 0⟩
def fNOC_P2_FLITS_COUNT : Field := ⟨.rNOC_P2_FLITS, 47, 0, .ro, false, 0⟩
def fNOC_ADD_FLITS_COUNT : Field := ⟨.rNOC_ADD_FLITS, 47, 0, .ro, false, 0⟩
def fNOC_BR_RETRY_COUNT : Field := ⟨.rNOC_BR_RETRY, 47, 0, .ro, false, 0⟩
def fNOC_DETOUR_FLITS_COUNT : Field := ⟨.rNOC_DETOUR_FLITS, 47, 0, .ro, false, 0⟩
def fNOC_ROUTE_PORTS : Field := ⟨.rNOC_ROUTE, 63, 0, .ro, false, 0⟩
def fFAB_CTL_RETRY_BUDGET : Field := ⟨.rFAB_CTL, 11, 8, .rw, false, 2⟩
def fFAB_CTL_TIME_EVENT : Field := ⟨.rFAB_CTL, 3, 3, .rw, false, 1⟩
def fFAB_CTL_DOWN_EVENT : Field := ⟨.rFAB_CTL, 2, 2, .rw, false, 1⟩
def fFAB_CTL_DROP_EVENT : Field := ⟨.rFAB_CTL, 1, 1, .rw, false, 0⟩
def fFAB_CTL_RETRY_EVENT : Field := ⟨.rFAB_CTL, 0, 0, .rw, false, 0⟩
def fFAB_ID_EPOCH : Field := ⟨.rFAB_ID, 63, 32, .ro, false, 0⟩
def fFAB_ID_DEV_ID : Field := ⟨.rFAB_ID, 9, 0, .ro, false, 0⟩
def fFAB_TIME_STAT_STATE : Field := ⟨.rFAB_TIME_STAT, 63, 60, .ro, false, 0⟩
def fFAB_TIME_STAT_HOPS : Field := ⟨.rFAB_TIME_STAT, 55, 48, .ro, false, 0⟩
def fFAB_TIME_STAT_UPPORT : Field := ⟨.rFAB_TIME_STAT, 44, 40, .ro, false, 31⟩
def fFAB_TIME_STAT_SOURCE : Field := ⟨.rFAB_TIME_STAT, 25, 16, .ro, false, 0⟩
def fFAB_TIME_STAT_BOUND : Field := ⟨.rFAB_TIME_STAT, 15, 0, .ro, false, 0⟩
def fFAB_TIME_OFS_DELAY : Field := ⟨.rFAB_TIME_OFS, 63, 32, .ro, false, 0⟩
def fFAB_TIME_OFS_OFFSET : Field := ⟨.rFAB_TIME_OFS, 31, 0, .ro, false, 0⟩
def fFAB_PORT_STAT_STATE : Field := ⟨.rFAB_PORT_STAT, 63, 62, .ro, false, 0⟩
def fFAB_PORT_STAT_X4 : Field := ⟨.rFAB_PORT_STAT, 61, 61, .ro, false, 0⟩
def fFAB_PORT_STAT_REVERSED : Field := ⟨.rFAB_PORT_STAT, 60, 60, .ro, false, 0⟩
def fFAB_PORT_STAT_LANES : Field := ⟨.rFAB_PORT_STAT, 59, 52, .ro, false, 0⟩
def fFAB_PORT_STAT_POLARITY : Field := ⟨.rFAB_PORT_STAT, 47, 40, .ro, false, 0⟩
def fFAB_PORT_STAT_FLIGHT : Field := ⟨.rFAB_PORT_STAT, 31, 16, .ro, false, 0⟩
def fFAB_PORT_STAT_PEER : Field := ⟨.rFAB_PORT_STAT, 9, 0, .ro, false, 0⟩
def fFAB_PORT_EQ_FREEZE : Field := ⟨.rFAB_PORT_EQ, 63, 63, .rw, true, 0⟩
def fFAB_PORT_EQ_FFE_PRESET : Field := ⟨.rFAB_PORT_EQ, 47, 40, .rw, true, 0⟩
def fFAB_PORT_EQ_CTLE_OFS : Field := ⟨.rFAB_PORT_EQ, 31, 24, .rw, true, 0⟩
def fFAB_PORT_EQ_DFE_OFS : Field := ⟨.rFAB_PORT_EQ, 23, 16, .rw, true, 0⟩
def fFAB_PORT_EQ_MARGIN : Field := ⟨.rFAB_PORT_EQ, 15, 8, .ro, false, 0⟩
def fFAB_PCNT_COUNT : Field := ⟨.rFAB_PCNT, 47, 0, .ro, false, 0⟩
def fFAB_DROP_CNT_COUNT : Field := ⟨.rFAB_DROP_CNT, 47, 0, .ro, false, 0⟩
def fFAB_LAND_CNT_COUNT : Field := ⟨.rFAB_LAND_CNT, 47, 0, .ro, false, 0⟩
def fFAB_NOROUTE_CNT_COUNT : Field := ⟨.rFAB_NOROUTE_CNT, 47, 0, .ro, false, 0⟩
def fFAB_TIME_EXCH_COUNT : Field := ⟨.rFAB_TIME_EXCH, 47, 0, .ro, false, 0⟩
def fFAB_RED_UNITS_COUNT : Field := ⟨.rFAB_RED_UNITS, 47, 0, .ro, false, 0⟩
def fFAB_ROUTE_VALID : Field := ⟨.rFAB_ROUTE, 63, 63, .ro, false, 0⟩
def fFAB_ROUTE_VL : Field := ⟨.rFAB_ROUTE, 17, 16, .ro, false, 0⟩
def fFAB_ROUTE_PORT2 : Field := ⟨.rFAB_ROUTE, 14, 10, .ro, false, 31⟩
def fFAB_ROUTE_PORT1 : Field := ⟨.rFAB_ROUTE, 9, 5, .ro, false, 31⟩
def fFAB_ROUTE_PORT0 : Field := ⟨.rFAB_ROUTE, 4, 0, .ro, false, 31⟩
def fFAB_RSTAGE_VALID : Field := ⟨.rFAB_RSTAGE, 63, 63, .rw, false, 0⟩
def fFAB_RSTAGE_VL : Field := ⟨.rFAB_RSTAGE, 17, 16, .rw, false, 0⟩
def fFAB_RSTAGE_PORT2 : Field := ⟨.rFAB_RSTAGE, 14, 10, .rw, false, 31⟩
def fFAB_RSTAGE_PORT1 : Field := ⟨.rFAB_RSTAGE, 9, 5, .rw, false, 31⟩
def fFAB_RSTAGE_PORT0 : Field := ⟨.rFAB_RSTAGE, 4, 0, .rw, false, 31⟩
def fMEM_CTL_RETRAIN : Field := ⟨.rMEM_CTL, 5, 5, .wo, false, 0⟩
def fMEM_CTL_CE_EVENT : Field := ⟨.rMEM_CTL, 4, 4, .rw, false, 0⟩
def fMEM_CTL_UE_EVENT : Field := ⟨.rMEM_CTL, 3, 3, .rw, false, 1⟩
def fMEM_CTL_R2X_EVENT : Field := ⟨.rMEM_CTL, 2, 2, .rw, false, 0⟩
def fMEM_CTL_CAL_FREEZE : Field := ⟨.rMEM_CTL, 1, 1, .rw, true, 0⟩
def fMEM_CTL_SCRUB_EN : Field := ⟨.rMEM_CTL, 0, 0, .rw, true, 1⟩
def fMEM_STAT_TEMP : Field := ⟨.rMEM_STAT, 63, 56, .ro, false, 0⟩
def fMEM_STAT_REFRESH2X : Field := ⟨.rMEM_STAT, 55, 55, .ro, false, 0⟩
def fMEM_STAT_MARGIN_LOW : Field := ⟨.rMEM_STAT, 54, 54, .w1c, false, 0⟩
def fMEM_STAT_SELF_REFRESH : Field := ⟨.rMEM_STAT, 53, 53, .ro, false, 0⟩
def fMEM_STAT_FAILED : Field := ⟨.rMEM_STAT, 52, 52, .ro, false, 0⟩
def fMEM_STAT_RATE : Field := ⟨.rMEM_STAT, 51, 48, .ro, false, 0⟩
def fMEM_STAT_CAP_GIB : Field := ⟨.rMEM_STAT, 40, 32, .ro, false, 0⟩
def fMEM_CAL_MARGIN : Field := ⟨.rMEM_CAL, 31, 24, .ro, false, 0⟩
def fMEM_CAL_VREF_OFS : Field := ⟨.rMEM_CAL, 15, 8, .rw, true, 0⟩
def fMEM_CAL_DLY_OFS : Field := ⟨.rMEM_CAL, 7, 0, .rw, true, 0⟩
def fMEM_ECC_CE_VALID : Field := ⟨.rMEM_ECC_CE, 63, 63, .w1c, false, 0⟩
def fMEM_ECC_CE_MORE : Field := ⟨.rMEM_ECC_CE, 62, 62, .ro, false, 0⟩
def fMEM_ECC_CE_SCRUB : Field := ⟨.rMEM_ECC_CE, 61, 61, .ro, false, 0⟩
def fMEM_ECC_CE_LANE : Field := ⟨.rMEM_ECC_CE, 59, 54, .ro, false, 0⟩
def fMEM_ECC_CE_ADDR : Field := ⟨.rMEM_ECC_CE, 47, 0, .ro, false, 0⟩
def fMEM_ECC_UE_VALID : Field := ⟨.rMEM_ECC_UE, 63, 63, .w1c, false, 0⟩
def fMEM_ECC_UE_MORE : Field := ⟨.rMEM_ECC_UE, 62, 62, .ro, false, 0⟩
def fMEM_ECC_UE_SCRUB : Field := ⟨.rMEM_ECC_UE, 61, 61, .ro, false, 0⟩
def fMEM_ECC_UE_LANE : Field := ⟨.rMEM_ECC_UE, 59, 54, .ro, false, 0⟩
def fMEM_ECC_UE_ADDR : Field := ⟨.rMEM_ECC_UE, 47, 0, .ro, false, 0⟩
def fMEM_ECC_UE_SC_VALUE : Field := ⟨.rMEM_ECC_UE_SC, 63, 0, .ro, false, 0⟩
def fMEM_LAT_MAX_COUNT : Field := ⟨.rMEM_LAT_MAX, 47, 0, .ro, false, 0⟩
def fMEM_RD_BYTES_COUNT : Field := ⟨.rMEM_RD_BYTES, 47, 0, .ro, false, 0⟩
def fMEM_WR_BYTES_COUNT : Field := ⟨.rMEM_WR_BYTES, 47, 0, .ro, false, 0⟩
def fMEM_CE_CNT_COUNT : Field := ⟨.rMEM_CE_CNT, 47, 0, .ro, false, 0⟩
def fMEM_UE_CNT_COUNT : Field := ⟨.rMEM_UE_CNT, 47, 0, .ro, false, 0⟩
def fMEM_ODECC_CNT_COUNT : Field := ⟨.rMEM_ODECC_CNT, 47, 0, .ro, false, 0⟩
def fMEM_R2X_US_COUNT : Field := ⟨.rMEM_R2X_US, 47, 0, .ro, false, 0⟩
def fUPD_CTL_DIV0_EVENT : Field := ⟨.rUPD_CTL, 1, 1, .rw, false, 0⟩
def fUPD_CTL_FAULT_EVENT : Field := ⟨.rUPD_CTL, 0, 0, .rw, false, 1⟩
def fUPD_STAT_BUSY : Field := ⟨.rUPD_STAT, 63, 63, .ro, false, 0⟩
def fUPD_STAT_QUEUE : Field := ⟨.rUPD_STAT, 62, 56, .ro, false, 0⟩
def fUPD_STAT_RELEASES : Field := ⟨.rUPD_STAT, 55, 51, .ro, false, 0⟩
def fUPD_STAT_SHARD : Field := ⟨.rUPD_STAT, 47, 32, .ro, false, 0⟩
def fUPD_STAT_PROGRESS : Field := ⟨.rUPD_STAT, 31, 0, .ro, false, 0⟩
def fUPD_FAULT_VALID : Field := ⟨.rUPD_FAULT, 63, 63, .w1c, false, 0⟩
def fUPD_FAULT_MORE : Field := ⟨.rUPD_FAULT, 62, 62, .ro, false, 0⟩
def fUPD_FAULT_CAUSE : Field := ⟨.rUPD_FAULT, 61, 60, .ro, false, 0⟩
def fUPD_FAULT_OPC : Field := ⟨.rUPD_FAULT, 59, 56, .ro, false, 0⟩
def fUPD_FAULT_GROUP : Field := ⟨.rUPD_FAULT, 55, 48, .ro, false, 0⟩
def fUPD_FAULT_SHARD : Field := ⟨.rUPD_FAULT, 47, 32, .ro, false, 0⟩
def fUPD_FAULT_FOUND : Field := ⟨.rUPD_FAULT, 31, 16, .ro, false, 0⟩
def fUPD_FAULT_NEW_GEN : Field := ⟨.rUPD_FAULT, 15, 0, .ro, false, 0⟩
def fUPD_FAULT_POS_POS : Field := ⟨.rUPD_FAULT_POS, 63, 32, .ro, false, 0⟩
def fUPD_FAULT_POS_VALUE : Field := ⟨.rUPD_FAULT_POS, 31, 0, .ro, false, 0⟩
def fUPD_PARAMS_COUNT : Field := ⟨.rUPD_PARAMS, 47, 0, .ro, false, 0⟩
def fUPD_CMDS_COUNT : Field := ⟨.rUPD_CMDS, 47, 0, .ro, false, 0⟩
def fUPD_SETCOEF_CNT_COUNT : Field := ⟨.rUPD_SETCOEF_CNT, 47, 0, .ro, false, 0⟩
def fUPD_BUSY_COUNT : Field := ⟨.rUPD_BUSY, 47, 0, .ro, false, 0⟩
def fUPD_GCFG_PRESET : Field := ⟨.rUPD_GCFG, 63, 60, .ro, false, 0⟩
def fUPD_GCFG_F1 : Field := ⟨.rUPD_GCFG, 59, 58, .ro, true, 0⟩
def fUPD_GCFG_F2 : Field := ⟨.rUPD_GCFG, 57, 56, .ro, true, 0⟩
def fUPD_GCFG_H1 : Field := ⟨.rUPD_GCFG, 55, 55, .ro, true, 0⟩
def fUPD_GCFG_H2 : Field := ⟨.rUPD_GCFG, 54, 53, .ro, true, 0⟩
def fUPD_GCFG_S1_EN : Field := ⟨.rUPD_GCFG, 52, 52, .ro, true, 0⟩
def fUPD_GCFG_S2_EN : Field := ⟨.rUPD_GCFG, 51, 51, .ro, true, 0⟩
def fUPD_GCFG_SFMT : Field := ⟨.rUPD_GCFG, 50, 50, .ro, false, 0⟩
def fUPD_GCFG_NF_MODE : Field := ⟨.rUPD_GCFG, 49, 49, .ro, false, 0⟩
def fUPD_GSTAT_NONFINITE : Field := ⟨.rUPD_GSTAT, 6, 6, .w1c, false, 0⟩
def fUPD_GSTAT_DCLIP : Field := ⟨.rUPD_GSTAT, 5, 5, .w1c, false, 0⟩
def fUPD_GSTAT_GCLIP : Field := ⟨.rUPD_GSTAT, 4, 4, .w1c, false, 0⟩
def fUPD_GSTAT_DIV0 : Field := ⟨.rUPD_GSTAT, 3, 3, .w1c, false, 0⟩
def fUPD_GSTAT_UF : Field := ⟨.rUPD_GSTAT, 2, 2, .w1c, false, 0⟩
def fUPD_GSTAT_OF : Field := ⟨.rUPD_GSTAT, 1, 1, .w1c, false, 0⟩
def fUPD_GSTAT_NV : Field := ⟨.rUPD_GSTAT, 0, 0, .w1c, false, 0⟩
def fUPD_COEF_COEF_HI : Field := ⟨.rUPD_COEF, 63, 32, .ro, false, 0⟩
def fUPD_COEF_COEF_LO : Field := ⟨.rUPD_COEF, 31, 0, .ro, false, 0⟩
def fUPD_TAG_DEFINED : Field := ⟨.rUPD_TAG, 63, 63, .ro, false, 0⟩
def fUPD_TAG_MODE : Field := ⟨.rUPD_TAG, 62, 62, .ro, false, 0⟩
def fUPD_TAG_STASH_VALID : Field := ⟨.rUPD_TAG, 61, 61, .ro, false, 0⟩
def fUPD_TAG_PENDING_VALID : Field := ⟨.rUPD_TAG, 60, 60, .ro, false, 0⟩
def fUPD_TAG_CUR_SLOT : Field := ⟨.rUPD_TAG, 59, 59, .ro, false, 0⟩
def fUPD_TAG_OWNER : Field := ⟨.rUPD_TAG, 58, 54, .ro, false, 0⟩
def fUPD_TAG_PENDING : Field := ⟨.rUPD_TAG, 47, 32, .ro, false, 0⟩
def fUPD_TAG_STASH : Field := ⟨.rUPD_TAG, 31, 16, .ro, false, 0⟩
def fUPD_TAG_CUR : Field := ⟨.rUPD_TAG, 15, 0, .ro, false, 0⟩
def fXFR_CTL_LOST_EVENT : Field := ⟨.rXFR_CTL, 17, 17, .rw, false, 1⟩
def fXFR_CTL_FAULT_EVENT : Field := ⟨.rXFR_CTL, 16, 16, .rw, false, 1⟩
def fXFR_CTL_PRI_TIMEOUT : Field := ⟨.rXFR_CTL, 15, 0, .rw, false, 50⟩
def fXFR_STAT_FAULTED : Field := ⟨.rXFR_STAT, 63, 63, .ro, false, 0⟩
def fXFR_STAT_LOST : Field := ⟨.rXFR_STAT, 62, 62, .w1c, false, 0⟩
def fXFR_STAT_PENDING : Field := ⟨.rXFR_STAT, 52, 48, .ro, false, 0⟩
def fXFR_STAT_FIXED : Field := ⟨.rXFR_STAT, 35, 32, .ro, false, 0⟩
def fXFR_STAT_OPEN : Field := ⟨.rXFR_STAT, 6, 0, .ro, false, 0⟩
def fXFR_FAULT_VALID : Field := ⟨.rXFR_FAULT, 63, 63, .ro, false, 0⟩
def fXFR_FAULT_MORE : Field := ⟨.rXFR_FAULT, 62, 62, .ro, false, 0⟩
def fXFR_FAULT_CAUSE : Field := ⟨.rXFR_FAULT, 61, 58, .ro, false, 0⟩
def fXFR_FAULT_PORT : Field := ⟨.rXFR_FAULT, 57, 57, .ro, false, 0⟩
def fXFR_FAULT_WINDOW : Field := ⟨.rXFR_FAULT, 56, 47, .ro, false, 0⟩
def fXFR_FAULT_CTX : Field := ⟨.rXFR_FAULT, 46, 43, .ro, false, 0⟩
def fXFR_FAULT_C01_HI : Field := ⟨.rXFR_FAULT_C01, 63, 32, .ro, false, 0⟩
def fXFR_FAULT_C01_LO : Field := ⟨.rXFR_FAULT_C01, 31, 0, .ro, false, 0⟩
def fXFR_FAULT_C23_HI : Field := ⟨.rXFR_FAULT_C23, 63, 32, .ro, false, 0⟩
def fXFR_FAULT_C23_LO : Field := ⟨.rXFR_FAULT_C23, 31, 0, .ro, false, 0⟩
def fXFR_FAULT_C4_LO : Field := ⟨.rXFR_FAULT_C4, 31, 0, .ro, false, 0⟩
def fXFR_FAULT_HADDR_VALUE : Field := ⟨.rXFR_FAULT_HADDR, 63, 0, .ro, false, 0⟩
def fXFR_BYTES_COUNT : Field := ⟨.rXFR_BYTES, 47, 0, .ro, false, 0⟩
def fXFR_DESCS_COUNT : Field := ⟨.rXFR_DESCS, 47, 0, .ro, false, 0⟩
def fXFR_PRI_CNT_COUNT : Field := ⟨.rXFR_PRI_CNT, 47, 0, .ro, false, 0⟩
def fXFR_LOST_CNT_COUNT : Field := ⟨.rXFR_LOST_CNT, 47, 0, .ro, false, 0⟩
def fXFR_WIN_BASE_HADDR : Field := ⟨.rXFR_WIN_BASE, 63, 0, .ro, false, 0⟩
def fXFR_WIN_CFG_VALID : Field := ⟨.rXFR_WIN_CFG, 63, 63, .ro, false, 0⟩
def fXFR_WIN_CFG_NS : Field := ⟨.rXFR_WIN_CFG, 52, 52, .ro, false, 0⟩
def fXFR_WIN_CFG_RO : Field := ⟨.rXFR_WIN_CFG, 51, 51, .ro, false, 0⟩
def fXFR_WIN_CFG_AT : Field := ⟨.rXFR_WIN_CFG, 50, 50, .ro, false, 0⟩
def fXFR_WIN_CFG_WRITE : Field := ⟨.rXFR_WIN_CFG, 49, 49, .ro, false, 0⟩
def fXFR_WIN_CFG_READ : Field := ⟨.rXFR_WIN_CFG, 48, 48, .ro, false, 0⟩
def fXFR_WIN_CFG_PAGES : Field := ⟨.rXFR_WIN_CFG, 22, 0, .ro, false, 0⟩
def fREC_CTL_STOP_FULL : Field := ⟨.rREC_CTL, 2, 2, .rw, false, 0⟩
def fREC_CTL_PAUSE : Field := ⟨.rREC_CTL, 1, 1, .rw, false, 0⟩
def fREC_CTL_MERGE : Field := ⟨.rREC_CTL, 0, 0, .rw, false, 1⟩
def fREC_STAT_SEQ : Field := ⟨.rREC_STAT, 63, 32, .ro, false, 0⟩
def fREC_STAT_FULL : Field := ⟨.rREC_STAT, 31, 31, .ro, false, 0⟩
def fREC_STAT_HEAD : Field := ⟨.rREC_STAT, 12, 0, .ro, false, 0⟩
def fREC_FAULT_VALID : Field := ⟨.rREC_FAULT, 63, 63, .w1c, false, 0⟩
def fREC_FAULT_MORE : Field := ⟨.rREC_FAULT, 62, 62, .ro, false, 0⟩
def fREC_FAULT_CODE : Field := ⟨.rREC_FAULT, 55, 48, .ro, false, 0⟩
def fREC_FAULT_DETAIL : Field := ⟨.rREC_FAULT, 47, 40, .ro, false, 0⟩
def fREC_FAULT_YARD : Field := ⟨.rREC_FAULT, 39, 38, .ro, false, 0⟩
def fREC_FAULT_KIND : Field := ⟨.rREC_FAULT, 37, 36, .ro, false, 0⟩
def fREC_FAULT_POS : Field := ⟨.rREC_FAULT, 35, 31, .ro, false, 0⟩
def fREC_FAULT_UNIT : Field := ⟨.rREC_FAULT, 15, 0, .ro, false, 0⟩
def fREC_FAULT_SC_VALUE : Field := ⟨.rREC_FAULT_SC, 63, 0, .ro, false, 0⟩
def fREC_BOUNDS_ADDR_VALUE : Field := ⟨.rREC_BOUNDS_ADDR, 63, 0, .ro, false, 0⟩
def fREC_OVF_ADDR_VALUE : Field := ⟨.rREC_OVF_ADDR, 63, 0, .ro, false, 0⟩
def fREC_TRIG_EN_EN : Field := ⟨.rREC_TRIG_EN, 33, 0, .rw, false, 0x3FFFFFFFF⟩
def fREC_TRIG_SET_SETS : Field := ⟨.rREC_TRIG_SET, 63, 0, .rw, false, 0⟩
def fREC_FENCE_X : Field := ⟨.rREC_FENCE, 39, 32, .ro, false, 0⟩
def fREC_FENCE_S : Field := ⟨.rREC_FENCE, 31, 27, .ro, false, 0⟩
def fREC_FENCE_V : Field := ⟨.rREC_FENCE, 26, 18, .ro, false, 0⟩
def fREC_FENCE_M : Field := ⟨.rREC_FENCE, 17, 0, .ro, false, 0⟩
def fREC_LOST_CNT_COUNT : Field := ⟨.rREC_LOST_CNT, 47, 0, .ro, false, 0⟩
def fREC_LOGIC_CE_CNT_COUNT : Field := ⟨.rREC_LOGIC_CE_CNT, 47, 0, .ro, false, 0⟩
def fREC_LOGIC_UE_CNT_COUNT : Field := ⟨.rREC_LOGIC_UE_CNT, 47, 0, .ro, false, 0⟩
def fREC_BOUNDS_CNT_COUNT : Field := ⟨.rREC_BOUNDS_CNT, 47, 0, .ro, false, 0⟩
def fREC_SET_VALID : Field := ⟨.rREC_SET, 63, 63, .rw, false, 0⟩
def fREC_SET_HALF : Field := ⟨.rREC_SET, 32, 32, .rw, false, 0⟩
def fREC_SET_OFFSET : Field := ⟨.rREC_SET, 27, 0, .rw, false, 0⟩
def fREC_RECORD_WORD : Field := ⟨.rREC_RECORD, 63, 0, .ro, false, 0⟩
def fMON_CFG_ENABLE : Field := ⟨.rMON_CFG, 63, 63, .ro, false, 0⟩
def fMON_CFG_LIMIT_EN : Field := ⟨.rMON_CFG, 62, 62, .ro, false, 0⟩
def fMON_CFG_ABOVE : Field := ⟨.rMON_CFG, 61, 61, .ro, false, 0⟩
def fMON_CFG_SOURCE : Field := ⟨.rMON_CFG, 55, 48, .ro, false, 0⟩
def fMON_CFG_UNIT : Field := ⟨.rMON_CFG, 47, 40, .ro, false, 0⟩
def fMON_CFG_SHIFT : Field := ⟨.rMON_CFG, 36, 32, .ro, false, 0⟩
def fMON_CFG_BASE : Field := ⟨.rMON_CFG, 31, 0, .ro, false, 0⟩
def fMON_LIMIT_LIMIT : Field := ⟨.rMON_LIMIT, 31, 0, .ro, false, 0⟩
def fMON_MINMAX_MAX : Field := ⟨.rMON_MINMAX, 63, 32, .ro, false, 0x80000000⟩
def fMON_MINMAX_MIN : Field := ⟨.rMON_MINMAX, 31, 0, .ro, false, 0x7FFFFFFF⟩
def fMON_SAMPLES_COUNT : Field := ⟨.rMON_SAMPLES, 47, 0, .ro, false, 0⟩
def fMON_BIN_BIN_HI : Field := ⟨.rMON_BIN, 63, 32, .ro, false, 0⟩
def fMON_BIN_BIN_LO : Field := ⟨.rMON_BIN, 31, 0, .ro, false, 0⟩
def fENG_MCTL_SDC_STOP : Field := ⟨.rENG_MCTL, 1, 1, .rw, true, 1⟩
def fENG_MCTL_SDC_EVENT : Field := ⟨.rENG_MCTL, 0, 0, .rw, false, 1⟩
def fENG_MTOL_TOL_EXP : Field := ⟨.rENG_MTOL, 4, 0, .rw, true, 12⟩
def fENG_MSTAT_SHAPE : Field := ⟨.rENG_MSTAT, 15, 12, .ro, false, 0⟩
def fENG_MSTAT_CHK_SKIP : Field := ⟨.rENG_MSTAT, 4, 4, .w1c, false, 0⟩
def fENG_MSTAT_SDC : Field := ⟨.rENG_MSTAT, 3, 3, .w1c, false, 0⟩
def fENG_MSTAT_UF : Field := ⟨.rENG_MSTAT, 2, 2, .w1c, false, 0⟩
def fENG_MSTAT_OF : Field := ⟨.rENG_MSTAT, 1, 1, .w1c, false, 0⟩
def fENG_MSTAT_NV : Field := ⟨.rENG_MSTAT, 0, 0, .w1c, false, 0⟩
def fENG_MSDC_VALID : Field := ⟨.rENG_MSDC, 63, 63, .w1c, false, 0⟩
def fENG_MSDC_MORE : Field := ⟨.rENG_MSDC, 62, 62, .ro, false, 0⟩
def fENG_MSDC_AXIS : Field := ⟨.rENG_MSDC, 61, 61, .ro, false, 0⟩
def fENG_MSDC_ACC : Field := ⟨.rENG_MSDC, 60, 60, .ro, false, 0⟩
def fENG_MSDC_POS : Field := ⟨.rENG_MSDC, 59, 55, .ro, false, 0⟩
def fENG_MSDC_INDEX : Field := ⟨.rENG_MSDC, 47, 40, .ro, false, 0⟩
def fENG_MSDC_RATIO : Field := ⟨.rENG_MSDC, 31, 0, .ro, false, 0⟩
def fENG_MSDC_SC_VALUE : Field := ⟨.rENG_MSDC_SC, 63, 0, .ro, false, 0⟩
def fENG_MMANGER_MAX_DELAY : Field := ⟨.rENG_MMANGER, 23, 16, .ro, false, 0⟩
def fENG_MMANGER_PEAK : Field := ⟨.rENG_MMANGER, 15, 8, .ro, false, 0⟩
def fENG_MMANGER_LOW : Field := ⟨.rENG_MMANGER, 7, 0, .ro, false, 32⟩
def fENG_MSIDE_COUNT : Field := ⟨.rENG_MSIDE, 39, 32, .ro, false, 0⟩
def fENG_MSIDE_BASE : Field := ⟨.rENG_MSIDE, 21, 0, .ro, false, 0⟩
def fENG_MSTEPS_COUNT : Field := ⟨.rENG_MSTEPS, 47, 0, .ro, false, 0⟩
def fENG_MBUBBLE_COUNT : Field := ⟨.rENG_MBUBBLE, 47, 0, .ro, false, 0⟩
def fENG_MCONFLICT_COUNT : Field := ⟨.rENG_MCONFLICT, 47, 0, .ro, false, 0⟩
def fENG_MSDC_CNT_COUNT : Field := ⟨.rENG_MSDC_CNT, 47, 0, .ro, false, 0⟩
def fENG_MSKIP_CNT_COUNT : Field := ⟨.rENG_MSKIP_CNT, 47, 0, .ro, false, 0⟩
def fENG_VCTL_EMPTY_EVENT : Field := ⟨.rENG_VCTL, 1, 1, .rw, false, 0⟩
def fENG_VCTL_CHOL_EVENT : Field := ⟨.rENG_VCTL, 0, 0, .rw, false, 1⟩
def fENG_VSTAT_CHOL_DAMPED : Field := ⟨.rENG_VSTAT, 5, 5, .w1c, false, 0⟩
def fENG_VSTAT_EMPTY : Field := ⟨.rENG_VSTAT, 4, 4, .w1c, false, 0⟩
def fENG_VSTAT_DZ : Field := ⟨.rENG_VSTAT, 3, 3, .w1c, false, 0⟩
def fENG_VSTAT_UF : Field := ⟨.rENG_VSTAT, 2, 2, .w1c, false, 0⟩
def fENG_VSTAT_OF : Field := ⟨.rENG_VSTAT, 1, 1, .w1c, false, 0⟩
def fENG_VSTAT_NV : Field := ⟨.rENG_VSTAT, 0, 0, .w1c, false, 0⟩
def fENG_VSLOT_OCC3 : Field := ⟨.rENG_VSLOT, 31, 31, .ro, false, 0⟩
def fENG_VSLOT_SRC3 : Field := ⟨.rENG_VSLOT, 30, 30, .ro, false, 0⟩
def fENG_VSLOT_OCC2 : Field := ⟨.rENG_VSLOT, 23, 23, .ro, false, 0⟩
def fENG_VSLOT_SRC2 : Field := ⟨.rENG_VSLOT, 22, 22, .ro, false, 0⟩
def fENG_VSLOT_OCC1 : Field := ⟨.rENG_VSLOT, 15, 15, .ro, false, 0⟩
def fENG_VSLOT_SRC1 : Field := ⟨.rENG_VSLOT, 14, 14, .ro, false, 0⟩
def fENG_VSLOT_OCC0 : Field := ⟨.rENG_VSLOT, 7, 7, .ro, false, 0⟩
def fENG_VSLOT_SRC0 : Field := ⟨.rENG_VSLOT, 6, 6, .ro, false, 0⟩
def fENG_VPOS_POS : Field := ⟨.rENG_VPOS, 3, 0, .ro, false, 0⟩
def fENG_VISSUE_COUNT : Field := ⟨.rENG_VISSUE, 47, 0, .ro, false, 0⟩
def fENG_VCHOL_CNT_COUNT : Field := ⟨.rENG_VCHOL_CNT, 47, 0, .ro, false, 0⟩
def fENG_VEMPTY_CNT_COUNT : Field := ⟨.rENG_VEMPTY_CNT, 47, 0, .ro, false, 0⟩
def fRING_MAP_POS7 : Field := ⟨.rRING_MAP, 60, 56, .ro, false, 0⟩
def fRING_MAP_POS6 : Field := ⟨.rRING_MAP, 52, 48, .ro, false, 0⟩
def fRING_MAP_POS5 : Field := ⟨.rRING_MAP, 44, 40, .ro, false, 0⟩
def fRING_MAP_POS4 : Field := ⟨.rRING_MAP, 36, 32, .ro, false, 0⟩
def fRING_MAP_POS3 : Field := ⟨.rRING_MAP, 28, 24, .ro, false, 0⟩
def fRING_MAP_POS2 : Field := ⟨.rRING_MAP, 20, 16, .ro, false, 0⟩
def fRING_MAP_POS1 : Field := ⟨.rRING_MAP, 12, 8, .ro, false, 0⟩
def fRING_MAP_POS0 : Field := ⟨.rRING_MAP, 4, 0, .ro, false, 0⟩
def fRING_REST_REST1 : Field := ⟨.rRING_REST, 12, 8, .ro, false, 0⟩
def fRING_REST_REST0 : Field := ⟨.rRING_REST, 4, 0, .ro, false, 0⟩
def fRING_STAT_UNUSED : Field := ⟨.rRING_STAT, 49, 32, .ro, false, 0⟩
def fRING_STAT_FENCED : Field := ⟨.rRING_STAT, 17, 0, .ro, false, 0⟩
def fRING_VFAULT_VALID : Field := ⟨.rRING_VFAULT, 63, 63, .w1c, false, 0⟩
def fRING_VFAULT_MORE : Field := ⟨.rRING_VFAULT, 62, 62, .ro, false, 0⟩
def fRING_VFAULT_RING : Field := ⟨.rRING_VFAULT, 61, 61, .ro, false, 0⟩
def fRING_VFAULT_STOP : Field := ⟨.rRING_VFAULT, 60, 59, .ro, false, 0⟩
def fRING_VFAULT_FOUND : Field := ⟨.rRING_VFAULT, 47, 32, .ro, false, 0⟩
def fRING_VFAULT_EXPECTED : Field := ⟨.rRING_VFAULT, 31, 16, .ro, false, 0⟩
def fRING_VFAULT_REGION : Field := ⟨.rRING_VFAULT, 15, 0, .ro, false, 0⟩
def fRING_VFAULT_SC_VALUE : Field := ⟨.rRING_VFAULT_SC, 63, 0, .ro, false, 0⟩
def fRING_FLITS_CW_COUNT : Field := ⟨.rRING_FLITS_CW, 47, 0, .ro, false, 0⟩
def fRING_FLITS_CCW_COUNT : Field := ⟨.rRING_FLITS_CCW, 47, 0, .ro, false, 0⟩
def fRING_DISCARD_COUNT : Field := ⟨.rRING_DISCARD, 47, 0, .ro, false, 0⟩
def fTRK_CFG_BASE : Field := ⟨.rTRK_CFG, 7, 0, .ro, false, 0⟩
def fTRK_AMAX_NAN_COUNT : Field := ⟨.rTRK_AMAX, 63, 32, .ro, false, 0⟩
def fTRK_AMAX_AMAX : Field := ⟨.rTRK_AMAX, 31, 0, .ro, false, 0⟩
def fTRK_BIN_BIN_HI : Field := ⟨.rTRK_BIN, 63, 32, .ro, false, 0⟩
def fTRK_BIN_BIN_LO : Field := ⟨.rTRK_BIN, 31, 0, .ro, false, 0⟩
def fOCM_CTL_CE_EVENT : Field := ⟨.rOCM_CTL, 2, 2, .rw, false, 0⟩
def fOCM_CTL_UE_EVENT : Field := ⟨.rOCM_CTL, 1, 1, .rw, false, 1⟩
def fOCM_CTL_SCRUB_EN : Field := ⟨.rOCM_CTL, 0, 0, .rw, true, 1⟩
def fOCM_ECC_CE_VALID : Field := ⟨.rOCM_ECC_CE, 63, 63, .w1c, false, 0⟩
def fOCM_ECC_CE_MORE : Field := ⟨.rOCM_ECC_CE, 62, 62, .ro, false, 0⟩
def fOCM_ECC_CE_SCRUB : Field := ⟨.rOCM_ECC_CE, 61, 61, .ro, false, 0⟩
def fOCM_ECC_CE_SPACE : Field := ⟨.rOCM_ECC_CE, 60, 58, .ro, false, 0⟩
def fOCM_ECC_CE_POS : Field := ⟨.rOCM_ECC_CE, 57, 53, .ro, false, 0⟩
def fOCM_ECC_CE_BANK : Field := ⟨.rOCM_ECC_CE, 52, 47, .ro, false, 0⟩
def fOCM_ECC_CE_OFFSET : Field := ⟨.rOCM_ECC_CE, 31, 0, .ro, false, 0⟩
def fOCM_ECC_UE_VALID : Field := ⟨.rOCM_ECC_UE, 63, 63, .w1c, false, 0⟩
def fOCM_ECC_UE_MORE : Field := ⟨.rOCM_ECC_UE, 62, 62, .ro, false, 0⟩
def fOCM_ECC_UE_SCRUB : Field := ⟨.rOCM_ECC_UE, 61, 61, .ro, false, 0⟩
def fOCM_ECC_UE_SPACE : Field := ⟨.rOCM_ECC_UE, 60, 58, .ro, false, 0⟩
def fOCM_ECC_UE_POS : Field := ⟨.rOCM_ECC_UE, 57, 53, .ro, false, 0⟩
def fOCM_ECC_UE_BANK : Field := ⟨.rOCM_ECC_UE, 52, 47, .ro, false, 0⟩
def fOCM_ECC_UE_OFFSET : Field := ⟨.rOCM_ECC_UE, 31, 0, .ro, false, 0⟩
def fOCM_ECC_UE_SC_VALUE : Field := ⟨.rOCM_ECC_UE_SC, 63, 0, .ro, false, 0⟩
def fOCM_CE_CNT_COUNT : Field := ⟨.rOCM_CE_CNT, 47, 0, .ro, false, 0⟩
def fOCM_UE_CNT_COUNT : Field := ⟨.rOCM_UE_CNT, 47, 0, .ro, false, 0⟩
def fOCM_YS_CONFLICT_COUNT : Field := ⟨.rOCM_YS_CONFLICT, 47, 0, .ro, false, 0⟩
def fOCM_NET_WAIT_COUNT : Field := ⟨.rOCM_NET_WAIT, 47, 0, .ro, false, 0⟩
def fOCM_SCRUB_PASSES_COUNT : Field := ⟨.rOCM_SCRUB_PASSES, 47, 0, .ro, false, 0⟩
def fOCM_FENCED_DROP_COUNT : Field := ⟨.rOCM_FENCED_DROP, 47, 0, .ro, false, 0⟩
def fOCM_STALL_ALLOC : Field := ⟨.rOCM_STALL, 63, 0, .ro, false, 0⟩
def fSEC_BOOT_STAGE : Field := ⟨.rSEC_BOOT, 63, 56, .ro, false, 0⟩
def fSEC_BOOT_FAIL : Field := ⟨.rSEC_BOOT, 55, 48, .ro, false, 0⟩
def fSEC_BOOT_COPY : Field := ⟨.rSEC_BOOT, 33, 32, .ro, false, 0⟩
def fSEC_BOOT_BOOT_MS : Field := ⟨.rSEC_BOOT, 31, 0, .ro, false, 0⟩
def fSEC_FW_VERSION : Field := ⟨.rSEC_FW, 63, 48, .ro, false, 0⟩
def fSEC_FW_SVN : Field := ⟨.rSEC_FW, 47, 32, .ro, false, 0⟩
def fSEC_FW_MIN_SVN : Field := ⟨.rSEC_FW, 31, 16, .ro, false, 0⟩
def fSEC_FW_KEY : Field := ⟨.rSEC_FW, 3, 0, .ro, false, 0⟩
def fSEC_LOFT_LSTATE : Field := ⟨.rSEC_LOFT, 63, 62, .ro, false, 0⟩
def fSEC_LOFT_TYPE : Field := ⟨.rSEC_LOFT, 55, 48, .ro, false, 0⟩
def fSEC_LOFT_VERSION : Field := ⟨.rSEC_LOFT, 47, 32, .ro, false, 0⟩
def fSEC_LOFT_BYTES : Field := ⟨.rSEC_LOFT, 25, 0, .ro, false, 0⟩
def fSEC_ID_VALID : Field := ⟨.rSEC_ID, 63, 63, .ro, false, 0⟩
def fSEC_ID_FAIL : Field := ⟨.rSEC_ID, 62, 62, .ro, false, 0⟩
def fSEC_SETTINGS_FMT : Field := ⟨.rSEC_SETTINGS, 63, 48, .ro, false, 0⟩
def fSEC_SETTINGS_FOUND : Field := ⟨.rSEC_SETTINGS, 47, 32, .ro, false, 0⟩
def fSEC_SETTINGS_RESET : Field := ⟨.rSEC_SETTINGS, 31, 31, .ro, false, 0⟩
def fSEC_SETTINGS_COPY : Field := ⟨.rSEC_SETTINGS, 30, 30, .ro, false, 0⟩
def fSEC_SETTINGS_OWNER : Field := ⟨.rSEC_SETTINGS, 29, 29, .ro, false, 0⟩
def fSEC_SETTINGS_KEYS : Field := ⟨.rSEC_SETTINGS, 3, 0, .ro, false, 0⟩
def fSEC_IDPUB_VALUE : Field := ⟨.rSEC_IDPUB, 63, 0, .ro, false, 0⟩
def fSEC_IMGKEY_VALUE : Field := ⟨.rSEC_IMGKEY, 63, 0, .ro, false, 0⟩
def fSEC_SPDM_CNT_COUNT : Field := ⟨.rSEC_SPDM_CNT, 47, 0, .ro, false, 0⟩
def fSEC_SPDM_ERR_CNT_COUNT : Field := ⟨.rSEC_SPDM_ERR_CNT, 47, 0, .ro, false, 0⟩

/-- The fields of a register, as its table lists them. -/
def RegName.fields : RegName → List Field
  | .rDEV_IDENT => [fDEV_IDENT_STEPPING, fDEV_IDENT_PART]
  | .rDEV_SERIAL => [fDEV_SERIAL_SERIAL]
  | .rDEV_CTL => [fDEV_CTL_EXPERT_ENABLE]
  | .rHST_CTL => [fHST_CTL_WDOG_EVENT, fHST_CTL_CMD_TIMEOUT_MS]
  | .rHST_STATE => [fHST_STATE_LAST_FAULT, fHST_STATE_FW_READY, fHST_STATE_LONG, fHST_STATE_CLAIM, fHST_STATE_STATE]
  | .rHST_SEQ => [fHST_SEQ_VALUE]
  | .rHST_CMDS => [fHST_CMDS_COUNT]
  | .rHST_EVENTS_LOST => [fHST_EVENTS_LOST_COUNT]
  | .rHST_BAR2_WR_CNT => [fHST_BAR2_WR_CNT_COUNT]
  | .rHST_WDOG_CNT => [fHST_WDOG_CNT_COUNT]
  | .rSCH_CTL => [fSCH_CTL_SLIP_HALT, fSCH_CTL_HOLD_EVENT]
  | .rSCH_SC => [fSCH_SC_VALUE]
  | .rSCH_TC => [fSCH_TC_VALUE]
  | .rSCH_HOLD_STAT => [fSCH_HOLD_STAT_HELD, fSCH_HOLD_STAT_PENDING, fSCH_HOLD_STAT_RELEASING, fSCH_HOLD_STAT_PRI, fSCH_HOLD_STAT_RETRY, fSCH_HOLD_STAT_REFRESH2X, fSCH_HOLD_STAT_CAUSE_SET, fSCH_HOLD_STAT_CAUSE]
  | .rSCH_HOLD_FREEZE => [fSCH_HOLD_FREEZE_VALUE]
  | .rSCH_HOLD_LEN => [fSCH_HOLD_LEN_COUNT]
  | .rSCH_HOLD_TOTAL => [fSCH_HOLD_TOTAL_COUNT]
  | .rSCH_HOLD_CNT => [fSCH_HOLD_CNT_COUNT]
  | .rSCH_SB_USE => [fSCH_SB_USE_PEAK, fSCH_SB_USE_CURRENT]
  | .rSCH_VIOL_STAT => [fSCH_VIOL_STAT_VALID, fSCH_VIOL_STAT_MORE, fSCH_VIOL_STAT_CAUSE, fSCH_VIOL_STAT_YARD, fSCH_VIOL_STAT_KIND, fSCH_VIOL_STAT_POS]
  | .rSCH_VIOL_SC => [fSCH_VIOL_SC_VALUE]
  | .rSCH_NATIVE => [fSCH_NATIVE_LATENCIES]
  | .rSCH_PAD => [fSCH_PAD_PADS]
  | .rSCH_RUN_BASE => [fSCH_RUN_BASE_VALUE]
  | .rSCH_MARK_SC => [fSCH_MARK_SC_VALUE]
  | .rSCH_SLIP_EVENTS => [fSCH_SLIP_EVENTS_COUNT]
  | .rSCH_SLIP_MARKS => [fSCH_SLIP_MARKS_COUNT]
  | .rSCH_SLIP_LAST => [fSCH_SLIP_LAST_VALUE]
  | .rCLK_CTL => [fCLK_CTL_MISSED_EVENT, fCLK_CTL_THROTTLE_EVENT, fCLK_CTL_OPCHG_EVENT, fCLK_CTL_AVS_EVENT]
  | .rCLK_OP => [fCLK_OP_PENDING, fCLK_OP_FAIL, fCLK_OP_REQ, fCLK_OP_TARGET, fCLK_OP_LOOP, fCLK_OP_CURRENT]
  | .rCLK_OP_AT => [fCLK_OP_AT_VALUE]
  | .rCLK_PL => [fCLK_PL_MEASURED, fCLK_PL_BOARD_CAP, fCLK_PL_LIMIT]
  | .rCLK_PL_CTL => [fCLK_PL_CTL_LOOP_OFF, fCLK_PL_CTL_TAU_MS]
  | .rCLK_THERM => [fCLK_THERM_TJ_MAX, fCLK_THERM_THROTTLE_C, fCLK_THERM_TRIP, fCLK_THERM_MEM_HOT, fCLK_THERM_THROTTLING]
  | .rCLK_PD_CTL => [fCLK_PD_CTL_ON]
  | .rCLK_PD_STAT => [fCLK_PD_STAT_ON]
  | .rCLK_STRETCH_CTL => [fCLK_STRETCH_CTL_THRESH_OFS]
  | .rCLK_REGION => [fCLK_REGION_PACE_LAST, fCLK_REGION_STRETCH_LAST, fCLK_REGION_MISSED, fCLK_REGION_SKEW_MAX]
  | .rCLK_AVS => [fCLK_AVS_FAULT, fCLK_AVS_FREEZE, fCLK_AVS_IOUT, fCLK_AVS_OFS, fCLK_AVS_VOUT]
  | .rCLK_PLL => [fCLK_PLL_LOCKED, fCLK_PLL_FAIL, fCLK_PLL_DIVIDER]
  | .rCLK_STRETCH_CNT => [fCLK_STRETCH_CNT_COUNT]
  | .rCLK_PACE_CNT => [fCLK_PACE_CNT_COUNT]
  | .rCLK_MISS_CNT => [fCLK_MISS_CNT_COUNT]
  | .rCLK_OPCHG_CNT => [fCLK_OPCHG_CNT_COUNT]
  | .rCLK_RELOCK_CNT => [fCLK_RELOCK_CNT_COUNT]
  | .rCLK_THROTTLE_MS => [fCLK_THROTTLE_MS_COUNT]
  | .rCLK_AVS_ERR_CNT => [fCLK_AVS_ERR_CNT_COUNT]
  | .rNOC_CTL => [fNOC_CTL_RETRY_EVENT, fNOC_CTL_FAIL_EVENT]
  | .rNOC_CFG => [fNOC_CFG_DIAG, fNOC_CFG_PERIOD]
  | .rNOC_FAILED => [fNOC_FAILED_ROUTER]
  | .rNOC_BRIDGE => [fNOC_BRIDGE_LOST, fNOC_BRIDGE_BY_UP, fNOC_BRIDGE_BX_UP]
  | .rNOC_LAT_MAX => [fNOC_LAT_MAX_P2_MAX, fNOC_LAT_MAX_P0_MAX]
  | .rNOC_P0_FLITS => [fNOC_P0_FLITS_COUNT]
  | .rNOC_P1_FLITS => [fNOC_P1_FLITS_COUNT]
  | .rNOC_P2_FLITS => [fNOC_P2_FLITS_COUNT]
  | .rNOC_ADD_FLITS => [fNOC_ADD_FLITS_COUNT]
  | .rNOC_BR_RETRY => [fNOC_BR_RETRY_COUNT]
  | .rNOC_DETOUR_FLITS => [fNOC_DETOUR_FLITS_COUNT]
  | .rNOC_ROUTE => [fNOC_ROUTE_PORTS]
  | .rFAB_CTL => [fFAB_CTL_RETRY_BUDGET, fFAB_CTL_TIME_EVENT, fFAB_CTL_DOWN_EVENT, fFAB_CTL_DROP_EVENT, fFAB_CTL_RETRY_EVENT]
  | .rFAB_ID => [fFAB_ID_EPOCH, fFAB_ID_DEV_ID]
  | .rFAB_TIME_STAT => [fFAB_TIME_STAT_STATE, fFAB_TIME_STAT_HOPS, fFAB_TIME_STAT_UPPORT, fFAB_TIME_STAT_SOURCE, fFAB_TIME_STAT_BOUND]
  | .rFAB_TIME_OFS => [fFAB_TIME_OFS_DELAY, fFAB_TIME_OFS_OFFSET]
  | .rFAB_PORT_STAT => [fFAB_PORT_STAT_STATE, fFAB_PORT_STAT_X4, fFAB_PORT_STAT_REVERSED, fFAB_PORT_STAT_LANES, fFAB_PORT_STAT_POLARITY, fFAB_PORT_STAT_FLIGHT, fFAB_PORT_STAT_PEER]
  | .rFAB_PORT_EQ => [fFAB_PORT_EQ_FREEZE, fFAB_PORT_EQ_FFE_PRESET, fFAB_PORT_EQ_CTLE_OFS, fFAB_PORT_EQ_DFE_OFS, fFAB_PORT_EQ_MARGIN]
  | .rFAB_PCNT => [fFAB_PCNT_COUNT]
  | .rFAB_DROP_CNT => [fFAB_DROP_CNT_COUNT]
  | .rFAB_LAND_CNT => [fFAB_LAND_CNT_COUNT]
  | .rFAB_NOROUTE_CNT => [fFAB_NOROUTE_CNT_COUNT]
  | .rFAB_TIME_EXCH => [fFAB_TIME_EXCH_COUNT]
  | .rFAB_RED_UNITS => [fFAB_RED_UNITS_COUNT]
  | .rFAB_ROUTE => [fFAB_ROUTE_VALID, fFAB_ROUTE_VL, fFAB_ROUTE_PORT2, fFAB_ROUTE_PORT1, fFAB_ROUTE_PORT0]
  | .rFAB_RSTAGE => [fFAB_RSTAGE_VALID, fFAB_RSTAGE_VL, fFAB_RSTAGE_PORT2, fFAB_RSTAGE_PORT1, fFAB_RSTAGE_PORT0]
  | .rMEM_CTL => [fMEM_CTL_RETRAIN, fMEM_CTL_CE_EVENT, fMEM_CTL_UE_EVENT, fMEM_CTL_R2X_EVENT, fMEM_CTL_CAL_FREEZE, fMEM_CTL_SCRUB_EN]
  | .rMEM_STAT => [fMEM_STAT_TEMP, fMEM_STAT_REFRESH2X, fMEM_STAT_MARGIN_LOW, fMEM_STAT_SELF_REFRESH, fMEM_STAT_FAILED, fMEM_STAT_RATE, fMEM_STAT_CAP_GIB]
  | .rMEM_CAL => [fMEM_CAL_MARGIN, fMEM_CAL_VREF_OFS, fMEM_CAL_DLY_OFS]
  | .rMEM_ECC_CE => [fMEM_ECC_CE_VALID, fMEM_ECC_CE_MORE, fMEM_ECC_CE_SCRUB, fMEM_ECC_CE_LANE, fMEM_ECC_CE_ADDR]
  | .rMEM_ECC_UE => [fMEM_ECC_UE_VALID, fMEM_ECC_UE_MORE, fMEM_ECC_UE_SCRUB, fMEM_ECC_UE_LANE, fMEM_ECC_UE_ADDR]
  | .rMEM_ECC_UE_SC => [fMEM_ECC_UE_SC_VALUE]
  | .rMEM_LAT_MAX => [fMEM_LAT_MAX_COUNT]
  | .rMEM_RD_BYTES => [fMEM_RD_BYTES_COUNT]
  | .rMEM_WR_BYTES => [fMEM_WR_BYTES_COUNT]
  | .rMEM_CE_CNT => [fMEM_CE_CNT_COUNT]
  | .rMEM_UE_CNT => [fMEM_UE_CNT_COUNT]
  | .rMEM_ODECC_CNT => [fMEM_ODECC_CNT_COUNT]
  | .rMEM_R2X_US => [fMEM_R2X_US_COUNT]
  | .rUPD_CTL => [fUPD_CTL_DIV0_EVENT, fUPD_CTL_FAULT_EVENT]
  | .rUPD_STAT => [fUPD_STAT_BUSY, fUPD_STAT_QUEUE, fUPD_STAT_RELEASES, fUPD_STAT_SHARD, fUPD_STAT_PROGRESS]
  | .rUPD_FAULT => [fUPD_FAULT_VALID, fUPD_FAULT_MORE, fUPD_FAULT_CAUSE, fUPD_FAULT_OPC, fUPD_FAULT_GROUP, fUPD_FAULT_SHARD, fUPD_FAULT_FOUND, fUPD_FAULT_NEW_GEN]
  | .rUPD_FAULT_POS => [fUPD_FAULT_POS_POS, fUPD_FAULT_POS_VALUE]
  | .rUPD_PARAMS => [fUPD_PARAMS_COUNT]
  | .rUPD_CMDS => [fUPD_CMDS_COUNT]
  | .rUPD_SETCOEF_CNT => [fUPD_SETCOEF_CNT_COUNT]
  | .rUPD_BUSY => [fUPD_BUSY_COUNT]
  | .rUPD_GCFG => [fUPD_GCFG_PRESET, fUPD_GCFG_F1, fUPD_GCFG_F2, fUPD_GCFG_H1, fUPD_GCFG_H2, fUPD_GCFG_S1_EN, fUPD_GCFG_S2_EN, fUPD_GCFG_SFMT, fUPD_GCFG_NF_MODE]
  | .rUPD_GSTAT => [fUPD_GSTAT_NONFINITE, fUPD_GSTAT_DCLIP, fUPD_GSTAT_GCLIP, fUPD_GSTAT_DIV0, fUPD_GSTAT_UF, fUPD_GSTAT_OF, fUPD_GSTAT_NV]
  | .rUPD_COEF => [fUPD_COEF_COEF_HI, fUPD_COEF_COEF_LO]
  | .rUPD_TAG => [fUPD_TAG_DEFINED, fUPD_TAG_MODE, fUPD_TAG_STASH_VALID, fUPD_TAG_PENDING_VALID, fUPD_TAG_CUR_SLOT, fUPD_TAG_OWNER, fUPD_TAG_PENDING, fUPD_TAG_STASH, fUPD_TAG_CUR]
  | .rXFR_CTL => [fXFR_CTL_LOST_EVENT, fXFR_CTL_FAULT_EVENT, fXFR_CTL_PRI_TIMEOUT]
  | .rXFR_STAT => [fXFR_STAT_FAULTED, fXFR_STAT_LOST, fXFR_STAT_PENDING, fXFR_STAT_FIXED, fXFR_STAT_OPEN]
  | .rXFR_FAULT => [fXFR_FAULT_VALID, fXFR_FAULT_MORE, fXFR_FAULT_CAUSE, fXFR_FAULT_PORT, fXFR_FAULT_WINDOW, fXFR_FAULT_CTX]
  | .rXFR_FAULT_C01 => [fXFR_FAULT_C01_HI, fXFR_FAULT_C01_LO]
  | .rXFR_FAULT_C23 => [fXFR_FAULT_C23_HI, fXFR_FAULT_C23_LO]
  | .rXFR_FAULT_C4 => [fXFR_FAULT_C4_LO]
  | .rXFR_FAULT_HADDR => [fXFR_FAULT_HADDR_VALUE]
  | .rXFR_BYTES => [fXFR_BYTES_COUNT]
  | .rXFR_DESCS => [fXFR_DESCS_COUNT]
  | .rXFR_PRI_CNT => [fXFR_PRI_CNT_COUNT]
  | .rXFR_LOST_CNT => [fXFR_LOST_CNT_COUNT]
  | .rXFR_WIN_BASE => [fXFR_WIN_BASE_HADDR]
  | .rXFR_WIN_CFG => [fXFR_WIN_CFG_VALID, fXFR_WIN_CFG_NS, fXFR_WIN_CFG_RO, fXFR_WIN_CFG_AT, fXFR_WIN_CFG_WRITE, fXFR_WIN_CFG_READ, fXFR_WIN_CFG_PAGES]
  | .rREC_CTL => [fREC_CTL_STOP_FULL, fREC_CTL_PAUSE, fREC_CTL_MERGE]
  | .rREC_STAT => [fREC_STAT_SEQ, fREC_STAT_FULL, fREC_STAT_HEAD]
  | .rREC_FAULT => [fREC_FAULT_VALID, fREC_FAULT_MORE, fREC_FAULT_CODE, fREC_FAULT_DETAIL, fREC_FAULT_YARD, fREC_FAULT_KIND, fREC_FAULT_POS, fREC_FAULT_UNIT]
  | .rREC_FAULT_SC => [fREC_FAULT_SC_VALUE]
  | .rREC_BOUNDS_ADDR => [fREC_BOUNDS_ADDR_VALUE]
  | .rREC_OVF_ADDR => [fREC_OVF_ADDR_VALUE]
  | .rREC_TRIG_EN => [fREC_TRIG_EN_EN]
  | .rREC_TRIG_SET => [fREC_TRIG_SET_SETS]
  | .rREC_FENCE => [fREC_FENCE_X, fREC_FENCE_S, fREC_FENCE_V, fREC_FENCE_M]
  | .rREC_LOST_CNT => [fREC_LOST_CNT_COUNT]
  | .rREC_LOGIC_CE_CNT => [fREC_LOGIC_CE_CNT_COUNT]
  | .rREC_LOGIC_UE_CNT => [fREC_LOGIC_UE_CNT_COUNT]
  | .rREC_BOUNDS_CNT => [fREC_BOUNDS_CNT_COUNT]
  | .rREC_SET => [fREC_SET_VALID, fREC_SET_HALF, fREC_SET_OFFSET]
  | .rREC_RECORD => [fREC_RECORD_WORD]
  | .rMON_CFG => [fMON_CFG_ENABLE, fMON_CFG_LIMIT_EN, fMON_CFG_ABOVE, fMON_CFG_SOURCE, fMON_CFG_UNIT, fMON_CFG_SHIFT, fMON_CFG_BASE]
  | .rMON_LIMIT => [fMON_LIMIT_LIMIT]
  | .rMON_MINMAX => [fMON_MINMAX_MAX, fMON_MINMAX_MIN]
  | .rMON_SAMPLES => [fMON_SAMPLES_COUNT]
  | .rMON_BIN => [fMON_BIN_BIN_HI, fMON_BIN_BIN_LO]
  | .rENG_MCTL => [fENG_MCTL_SDC_STOP, fENG_MCTL_SDC_EVENT]
  | .rENG_MTOL => [fENG_MTOL_TOL_EXP]
  | .rENG_MSTAT => [fENG_MSTAT_SHAPE, fENG_MSTAT_CHK_SKIP, fENG_MSTAT_SDC, fENG_MSTAT_UF, fENG_MSTAT_OF, fENG_MSTAT_NV]
  | .rENG_MSDC => [fENG_MSDC_VALID, fENG_MSDC_MORE, fENG_MSDC_AXIS, fENG_MSDC_ACC, fENG_MSDC_POS, fENG_MSDC_INDEX, fENG_MSDC_RATIO]
  | .rENG_MSDC_SC => [fENG_MSDC_SC_VALUE]
  | .rENG_MMANGER => [fENG_MMANGER_MAX_DELAY, fENG_MMANGER_PEAK, fENG_MMANGER_LOW]
  | .rENG_MSIDE => [fENG_MSIDE_COUNT, fENG_MSIDE_BASE]
  | .rENG_MSTEPS => [fENG_MSTEPS_COUNT]
  | .rENG_MBUBBLE => [fENG_MBUBBLE_COUNT]
  | .rENG_MCONFLICT => [fENG_MCONFLICT_COUNT]
  | .rENG_MSDC_CNT => [fENG_MSDC_CNT_COUNT]
  | .rENG_MSKIP_CNT => [fENG_MSKIP_CNT_COUNT]
  | .rENG_VCTL => [fENG_VCTL_EMPTY_EVENT, fENG_VCTL_CHOL_EVENT]
  | .rENG_VSTAT => [fENG_VSTAT_CHOL_DAMPED, fENG_VSTAT_EMPTY, fENG_VSTAT_DZ, fENG_VSTAT_UF, fENG_VSTAT_OF, fENG_VSTAT_NV]
  | .rENG_VSLOT => [fENG_VSLOT_OCC3, fENG_VSLOT_SRC3, fENG_VSLOT_OCC2, fENG_VSLOT_SRC2, fENG_VSLOT_OCC1, fENG_VSLOT_SRC1, fENG_VSLOT_OCC0, fENG_VSLOT_SRC0]
  | .rENG_VPOS => [fENG_VPOS_POS]
  | .rENG_VISSUE => [fENG_VISSUE_COUNT]
  | .rENG_VCHOL_CNT => [fENG_VCHOL_CNT_COUNT]
  | .rENG_VEMPTY_CNT => [fENG_VEMPTY_CNT_COUNT]
  | .rRING_MAP => [fRING_MAP_POS7, fRING_MAP_POS6, fRING_MAP_POS5, fRING_MAP_POS4, fRING_MAP_POS3, fRING_MAP_POS2, fRING_MAP_POS1, fRING_MAP_POS0]
  | .rRING_REST => [fRING_REST_REST1, fRING_REST_REST0]
  | .rRING_STAT => [fRING_STAT_UNUSED, fRING_STAT_FENCED]
  | .rRING_VFAULT => [fRING_VFAULT_VALID, fRING_VFAULT_MORE, fRING_VFAULT_RING, fRING_VFAULT_STOP, fRING_VFAULT_FOUND, fRING_VFAULT_EXPECTED, fRING_VFAULT_REGION]
  | .rRING_VFAULT_SC => [fRING_VFAULT_SC_VALUE]
  | .rRING_FLITS_CW => [fRING_FLITS_CW_COUNT]
  | .rRING_FLITS_CCW => [fRING_FLITS_CCW_COUNT]
  | .rRING_DISCARD => [fRING_DISCARD_COUNT]
  | .rTRK_CFG => [fTRK_CFG_BASE]
  | .rTRK_AMAX => [fTRK_AMAX_NAN_COUNT, fTRK_AMAX_AMAX]
  | .rTRK_BIN => [fTRK_BIN_BIN_HI, fTRK_BIN_BIN_LO]
  | .rOCM_CTL => [fOCM_CTL_CE_EVENT, fOCM_CTL_UE_EVENT, fOCM_CTL_SCRUB_EN]
  | .rOCM_ECC_CE => [fOCM_ECC_CE_VALID, fOCM_ECC_CE_MORE, fOCM_ECC_CE_SCRUB, fOCM_ECC_CE_SPACE, fOCM_ECC_CE_POS, fOCM_ECC_CE_BANK, fOCM_ECC_CE_OFFSET]
  | .rOCM_ECC_UE => [fOCM_ECC_UE_VALID, fOCM_ECC_UE_MORE, fOCM_ECC_UE_SCRUB, fOCM_ECC_UE_SPACE, fOCM_ECC_UE_POS, fOCM_ECC_UE_BANK, fOCM_ECC_UE_OFFSET]
  | .rOCM_ECC_UE_SC => [fOCM_ECC_UE_SC_VALUE]
  | .rOCM_CE_CNT => [fOCM_CE_CNT_COUNT]
  | .rOCM_UE_CNT => [fOCM_UE_CNT_COUNT]
  | .rOCM_YS_CONFLICT => [fOCM_YS_CONFLICT_COUNT]
  | .rOCM_NET_WAIT => [fOCM_NET_WAIT_COUNT]
  | .rOCM_SCRUB_PASSES => [fOCM_SCRUB_PASSES_COUNT]
  | .rOCM_FENCED_DROP => [fOCM_FENCED_DROP_COUNT]
  | .rOCM_STALL => [fOCM_STALL_ALLOC]
  | .rSEC_BOOT => [fSEC_BOOT_STAGE, fSEC_BOOT_FAIL, fSEC_BOOT_COPY, fSEC_BOOT_BOOT_MS]
  | .rSEC_FW => [fSEC_FW_VERSION, fSEC_FW_SVN, fSEC_FW_MIN_SVN, fSEC_FW_KEY]
  | .rSEC_LOFT => [fSEC_LOFT_LSTATE, fSEC_LOFT_TYPE, fSEC_LOFT_VERSION, fSEC_LOFT_BYTES]
  | .rSEC_ID => [fSEC_ID_VALID, fSEC_ID_FAIL]
  | .rSEC_SETTINGS => [fSEC_SETTINGS_FMT, fSEC_SETTINGS_FOUND, fSEC_SETTINGS_RESET, fSEC_SETTINGS_COPY, fSEC_SETTINGS_OWNER, fSEC_SETTINGS_KEYS]
  | .rSEC_IDPUB => [fSEC_IDPUB_VALUE]
  | .rSEC_IMGKEY => [fSEC_IMGKEY_VALUE]
  | .rSEC_SPDM_CNT => [fSEC_SPDM_CNT_COUNT]
  | .rSEC_SPDM_ERR_CNT => [fSEC_SPDM_ERR_CNT_COUNT]

/-- The offset in control space of the first register of a name (R10). -/
def RegName.base : RegName → Nat
  | .rDEV_IDENT => 0x0
  | .rDEV_SERIAL => 0x8
  | .rDEV_CTL => 0x10
  | .rHST_CTL => 0x1000000
  | .rHST_STATE => 0x1000008
  | .rHST_SEQ => 0x1000010
  | .rHST_CMDS => 0x1000100
  | .rHST_EVENTS_LOST => 0x1000108
  | .rHST_BAR2_WR_CNT => 0x1000110
  | .rHST_WDOG_CNT => 0x1000118
  | .rSCH_CTL => 0x2000000
  | .rSCH_SC => 0x2000008
  | .rSCH_TC => 0x2000010
  | .rSCH_HOLD_STAT => 0x2000018
  | .rSCH_HOLD_FREEZE => 0x2000020
  | .rSCH_HOLD_LEN => 0x2000028
  | .rSCH_HOLD_TOTAL => 0x2000030
  | .rSCH_HOLD_CNT => 0x2000100
  | .rSCH_SB_USE => 0x2000200
  | .rSCH_VIOL_STAT => 0x2000300
  | .rSCH_VIOL_SC => 0x2000308
  | .rSCH_NATIVE => 0x2000400
  | .rSCH_PAD => 0x2000420
  | .rSCH_RUN_BASE => 0x2000500
  | .rSCH_MARK_SC => 0x2000508
  | .rSCH_SLIP_EVENTS => 0x2000510
  | .rSCH_SLIP_MARKS => 0x2000518
  | .rSCH_SLIP_LAST => 0x2000520
  | .rCLK_CTL => 0x3000000
  | .rCLK_OP => 0x3000008
  | .rCLK_OP_AT => 0x3000010
  | .rCLK_PL => 0x3000018
  | .rCLK_PL_CTL => 0x3000020
  | .rCLK_THERM => 0x3000028
  | .rCLK_PD_CTL => 0x3000030
  | .rCLK_PD_STAT => 0x3000038
  | .rCLK_STRETCH_CTL => 0x3000040
  | .rCLK_REGION => 0x3000100
  | .rCLK_AVS => 0x3000200
  | .rCLK_PLL => 0x3000300
  | .rCLK_STRETCH_CNT => 0x3000400
  | .rCLK_PACE_CNT => 0x3000480
  | .rCLK_MISS_CNT => 0x3000500
  | .rCLK_OPCHG_CNT => 0x3000580
  | .rCLK_RELOCK_CNT => 0x3000588
  | .rCLK_THROTTLE_MS => 0x3000590
  | .rCLK_AVS_ERR_CNT => 0x3000598
  | .rNOC_CTL => 0x4000000
  | .rNOC_CFG => 0x4000008
  | .rNOC_FAILED => 0x4000010
  | .rNOC_BRIDGE => 0x4000018
  | .rNOC_LAT_MAX => 0x4000020
  | .rNOC_P0_FLITS => 0x4000100
  | .rNOC_P1_FLITS => 0x4000108
  | .rNOC_P2_FLITS => 0x4000110
  | .rNOC_ADD_FLITS => 0x4000118
  | .rNOC_BR_RETRY => 0x4000120
  | .rNOC_DETOUR_FLITS => 0x4000128
  | .rNOC_ROUTE => 0x4001000
  | .rFAB_CTL => 0x5000000
  | .rFAB_ID => 0x5000008
  | .rFAB_TIME_STAT => 0x5000010
  | .rFAB_TIME_OFS => 0x5000018
  | .rFAB_PORT_STAT => 0x5000100
  | .rFAB_PORT_EQ => 0x5000200
  | .rFAB_PCNT => 0x5001000
  | .rFAB_DROP_CNT => 0x5002000
  | .rFAB_LAND_CNT => 0x5002008
  | .rFAB_NOROUTE_CNT => 0x5002010
  | .rFAB_TIME_EXCH => 0x5002018
  | .rFAB_RED_UNITS => 0x5002020
  | .rFAB_ROUTE => 0x5010000
  | .rFAB_RSTAGE => 0x5020000
  | .rMEM_CTL => 0x6000000
  | .rMEM_STAT => 0x6000008
  | .rMEM_CAL => 0x6000010
  | .rMEM_ECC_CE => 0x6000018
  | .rMEM_ECC_UE => 0x6000020
  | .rMEM_ECC_UE_SC => 0x6000028
  | .rMEM_LAT_MAX => 0x6000030
  | .rMEM_RD_BYTES => 0x6000100
  | .rMEM_WR_BYTES => 0x6000108
  | .rMEM_CE_CNT => 0x6000110
  | .rMEM_UE_CNT => 0x6000118
  | .rMEM_ODECC_CNT => 0x6000120
  | .rMEM_R2X_US => 0x6000128
  | .rUPD_CTL => 0x7000000
  | .rUPD_STAT => 0x7000008
  | .rUPD_FAULT => 0x7000010
  | .rUPD_FAULT_POS => 0x7000018
  | .rUPD_PARAMS => 0x7000100
  | .rUPD_CMDS => 0x7000108
  | .rUPD_SETCOEF_CNT => 0x7000110
  | .rUPD_BUSY => 0x7000118
  | .rUPD_GCFG => 0x7001000
  | .rUPD_GSTAT => 0x7001008
  | .rUPD_COEF => 0x7001040
  | .rUPD_TAG => 0x7800000
  | .rXFR_CTL => 0x8000000
  | .rXFR_STAT => 0x8010000
  | .rXFR_FAULT => 0x8010008
  | .rXFR_FAULT_C01 => 0x8010010
  | .rXFR_FAULT_C23 => 0x8010018
  | .rXFR_FAULT_C4 => 0x8010020
  | .rXFR_FAULT_HADDR => 0x8010028
  | .rXFR_BYTES => 0x8010080
  | .rXFR_DESCS => 0x8010088
  | .rXFR_PRI_CNT => 0x8010090
  | .rXFR_LOST_CNT => 0x8010098
  | .rXFR_WIN_BASE => 0x8020000
  | .rXFR_WIN_CFG => 0x8020008
  | .rREC_CTL => 0x9000000
  | .rREC_STAT => 0x9000008
  | .rREC_FAULT => 0x9000010
  | .rREC_FAULT_SC => 0x9000018
  | .rREC_BOUNDS_ADDR => 0x9000020
  | .rREC_OVF_ADDR => 0x9000028
  | .rREC_TRIG_EN => 0x9000030
  | .rREC_TRIG_SET => 0x9000040
  | .rREC_FENCE => 0x9000080
  | .rREC_LOST_CNT => 0x9000100
  | .rREC_LOGIC_CE_CNT => 0x9000108
  | .rREC_LOGIC_UE_CNT => 0x9000110
  | .rREC_BOUNDS_CNT => 0x9000118
  | .rREC_SET => 0x9001000
  | .rREC_RECORD => 0x9100000
  | .rMON_CFG => 0xa000000
  | .rMON_LIMIT => 0xa000008
  | .rMON_MINMAX => 0xa000010
  | .rMON_SAMPLES => 0xa000018
  | .rMON_BIN => 0xa000080
  | .rENG_MCTL => 0xb000000
  | .rENG_MTOL => 0xb000008
  | .rENG_MSTAT => 0xb000010
  | .rENG_MSDC => 0xb000018
  | .rENG_MSDC_SC => 0xb000020
  | .rENG_MMANGER => 0xb000028
  | .rENG_MSIDE => 0xb000030
  | .rENG_MSTEPS => 0xb000100
  | .rENG_MBUBBLE => 0xb000108
  | .rENG_MCONFLICT => 0xb000110
  | .rENG_MSDC_CNT => 0xb000118
  | .rENG_MSKIP_CNT => 0xb000120
  | .rENG_VCTL => 0xb100000
  | .rENG_VSTAT => 0xb100008
  | .rENG_VSLOT => 0xb100010
  | .rENG_VPOS => 0xb100018
  | .rENG_VISSUE => 0xb100100
  | .rENG_VCHOL_CNT => 0xb100108
  | .rENG_VEMPTY_CNT => 0xb100110
  | .rRING_MAP => 0xb200000
  | .rRING_REST => 0xb200010
  | .rRING_STAT => 0xb200018
  | .rRING_VFAULT => 0xb200020
  | .rRING_VFAULT_SC => 0xb200028
  | .rRING_FLITS_CW => 0xb200100
  | .rRING_FLITS_CCW => 0xb200108
  | .rRING_DISCARD => 0xb200110
  | .rTRK_CFG => 0xb300000
  | .rTRK_AMAX => 0xb300008
  | .rTRK_BIN => 0xb300020
  | .rOCM_CTL => 0xb340000
  | .rOCM_ECC_CE => 0xb340008
  | .rOCM_ECC_UE => 0xb340010
  | .rOCM_ECC_UE_SC => 0xb340018
  | .rOCM_CE_CNT => 0xb340100
  | .rOCM_UE_CNT => 0xb340108
  | .rOCM_YS_CONFLICT => 0xb340110
  | .rOCM_NET_WAIT => 0xb340118
  | .rOCM_SCRUB_PASSES => 0xb340120
  | .rOCM_FENCED_DROP => 0xb340128
  | .rOCM_STALL => 0xb341000
  | .rSEC_BOOT => 0xc000000
  | .rSEC_FW => 0xc000008
  | .rSEC_LOFT => 0xc000010
  | .rSEC_ID => 0xc000018
  | .rSEC_SETTINGS => 0xc000020
  | .rSEC_IDPUB => 0xc000040
  | .rSEC_IMGKEY => 0xc000100
  | .rSEC_SPDM_CNT => 0xc000200
  | .rSEC_SPDM_ERR_CNT => 0xc000208

/-- The array dimensions of a register, outermost first: how many, and how far apart in bytes. -/
def RegName.dims : RegName → List (Nat × Nat)
  | .rDEV_IDENT => []
  | .rDEV_SERIAL => []
  | .rDEV_CTL => []
  | .rHST_CTL => []
  | .rHST_STATE => []
  | .rHST_SEQ => []
  | .rHST_CMDS => []
  | .rHST_EVENTS_LOST => []
  | .rHST_BAR2_WR_CNT => []
  | .rHST_WDOG_CNT => []
  | .rSCH_CTL => []
  | .rSCH_SC => []
  | .rSCH_TC => []
  | .rSCH_HOLD_STAT => []
  | .rSCH_HOLD_FREEZE => []
  | .rSCH_HOLD_LEN => []
  | .rSCH_HOLD_TOTAL => []
  | .rSCH_HOLD_CNT => [(16, 0x8)]
  | .rSCH_SB_USE => [(4, 0x8)]
  | .rSCH_VIOL_STAT => []
  | .rSCH_VIOL_SC => []
  | .rSCH_NATIVE => [(4, 0x8)]
  | .rSCH_PAD => [(2, 0x8)]
  | .rSCH_RUN_BASE => []
  | .rSCH_MARK_SC => []
  | .rSCH_SLIP_EVENTS => []
  | .rSCH_SLIP_MARKS => []
  | .rSCH_SLIP_LAST => []
  | .rCLK_CTL => []
  | .rCLK_OP => []
  | .rCLK_OP_AT => []
  | .rCLK_PL => []
  | .rCLK_PL_CTL => []
  | .rCLK_THERM => []
  | .rCLK_PD_CTL => []
  | .rCLK_PD_STAT => []
  | .rCLK_STRETCH_CTL => []
  | .rCLK_REGION => [(16, 0x8)]
  | .rCLK_AVS => [(16, 0x8)]
  | .rCLK_PLL => [(4, 0x8)]
  | .rCLK_STRETCH_CNT => [(16, 0x8)]
  | .rCLK_PACE_CNT => [(16, 0x8)]
  | .rCLK_MISS_CNT => [(16, 0x8)]
  | .rCLK_OPCHG_CNT => []
  | .rCLK_RELOCK_CNT => []
  | .rCLK_THROTTLE_MS => []
  | .rCLK_AVS_ERR_CNT => []
  | .rNOC_CTL => [(4, 0x10000)]
  | .rNOC_CFG => [(4, 0x10000)]
  | .rNOC_FAILED => [(4, 0x10000)]
  | .rNOC_BRIDGE => [(4, 0x10000)]
  | .rNOC_LAT_MAX => [(4, 0x10000)]
  | .rNOC_P0_FLITS => [(4, 0x10000)]
  | .rNOC_P1_FLITS => [(4, 0x10000)]
  | .rNOC_P2_FLITS => [(4, 0x10000)]
  | .rNOC_ADD_FLITS => [(4, 0x10000)]
  | .rNOC_BR_RETRY => [(4, 0x10000)]
  | .rNOC_DETOUR_FLITS => [(4, 0x10000)]
  | .rNOC_ROUTE => [(4, 0x10000), (48, 0x20), (4, 0x8)]
  | .rFAB_CTL => []
  | .rFAB_ID => []
  | .rFAB_TIME_STAT => []
  | .rFAB_TIME_OFS => []
  | .rFAB_PORT_STAT => [(24, 0x8)]
  | .rFAB_PORT_EQ => [(24, 0x8)]
  | .rFAB_PCNT => [(24, 0x40), (6, 0x8)]
  | .rFAB_DROP_CNT => []
  | .rFAB_LAND_CNT => []
  | .rFAB_NOROUTE_CNT => []
  | .rFAB_TIME_EXCH => []
  | .rFAB_RED_UNITS => []
  | .rFAB_ROUTE => [(1024, 0x8)]
  | .rFAB_RSTAGE => [(1024, 0x8)]
  | .rMEM_CTL => [(20, 0x10000)]
  | .rMEM_STAT => [(20, 0x10000)]
  | .rMEM_CAL => [(20, 0x10000)]
  | .rMEM_ECC_CE => [(20, 0x10000)]
  | .rMEM_ECC_UE => [(20, 0x10000)]
  | .rMEM_ECC_UE_SC => [(20, 0x10000)]
  | .rMEM_LAT_MAX => [(20, 0x10000)]
  | .rMEM_RD_BYTES => [(20, 0x10000)]
  | .rMEM_WR_BYTES => [(20, 0x10000)]
  | .rMEM_CE_CNT => [(20, 0x10000)]
  | .rMEM_UE_CNT => [(20, 0x10000)]
  | .rMEM_ODECC_CNT => [(20, 0x10000)]
  | .rMEM_R2X_US => [(20, 0x10000)]
  | .rUPD_CTL => [(20, 0x10000)]
  | .rUPD_STAT => [(20, 0x10000)]
  | .rUPD_FAULT => [(20, 0x10000)]
  | .rUPD_FAULT_POS => [(20, 0x10000)]
  | .rUPD_PARAMS => [(20, 0x10000)]
  | .rUPD_CMDS => [(20, 0x10000)]
  | .rUPD_SETCOEF_CNT => [(20, 0x10000)]
  | .rUPD_BUSY => [(20, 0x10000)]
  | .rUPD_GCFG => [(20, 0x10000), (256, 0x80)]
  | .rUPD_GSTAT => [(20, 0x10000), (256, 0x80)]
  | .rUPD_COEF => [(20, 0x10000), (256, 0x80), (8, 0x8)]
  | .rUPD_TAG => [(65536, 0x8)]
  | .rXFR_CTL => []
  | .rXFR_STAT => [(32, 0x100)]
  | .rXFR_FAULT => [(32, 0x100)]
  | .rXFR_FAULT_C01 => [(32, 0x100)]
  | .rXFR_FAULT_C23 => [(32, 0x100)]
  | .rXFR_FAULT_C4 => [(32, 0x100)]
  | .rXFR_FAULT_HADDR => [(32, 0x100)]
  | .rXFR_BYTES => [(32, 0x100)]
  | .rXFR_DESCS => [(32, 0x100)]
  | .rXFR_PRI_CNT => [(32, 0x100)]
  | .rXFR_LOST_CNT => [(32, 0x100)]
  | .rXFR_WIN_BASE => [(1024, 0x10)]
  | .rXFR_WIN_CFG => [(1024, 0x10)]
  | .rREC_CTL => []
  | .rREC_STAT => []
  | .rREC_FAULT => []
  | .rREC_FAULT_SC => []
  | .rREC_BOUNDS_ADDR => []
  | .rREC_OVF_ADDR => []
  | .rREC_TRIG_EN => []
  | .rREC_TRIG_SET => [(4, 0x8)]
  | .rREC_FENCE => [(4, 0x8)]
  | .rREC_LOST_CNT => []
  | .rREC_LOGIC_CE_CNT => []
  | .rREC_LOGIC_UE_CNT => []
  | .rREC_BOUNDS_CNT => []
  | .rREC_SET => [(16, 0x100), (24, 0x8)]
  | .rREC_RECORD => [(8192, 0x80), (16, 0x8)]
  | .rMON_CFG => [(64, 0x100)]
  | .rMON_LIMIT => [(64, 0x100)]
  | .rMON_MINMAX => [(64, 0x100)]
  | .rMON_SAMPLES => [(64, 0x100)]
  | .rMON_BIN => [(64, 0x100), (16, 0x8)]
  | .rENG_MCTL => [(4, 0x400000), (16, 0x1000)]
  | .rENG_MTOL => [(4, 0x400000), (16, 0x1000)]
  | .rENG_MSTAT => [(4, 0x400000), (16, 0x1000)]
  | .rENG_MSDC => [(4, 0x400000), (16, 0x1000)]
  | .rENG_MSDC_SC => [(4, 0x400000), (16, 0x1000)]
  | .rENG_MMANGER => [(4, 0x400000), (16, 0x1000)]
  | .rENG_MSIDE => [(4, 0x400000), (16, 0x1000)]
  | .rENG_MSTEPS => [(4, 0x400000), (16, 0x1000)]
  | .rENG_MBUBBLE => [(4, 0x400000), (16, 0x1000)]
  | .rENG_MCONFLICT => [(4, 0x400000), (16, 0x1000)]
  | .rENG_MSDC_CNT => [(4, 0x400000), (16, 0x1000)]
  | .rENG_MSKIP_CNT => [(4, 0x400000), (16, 0x1000)]
  | .rENG_VCTL => [(4, 0x400000), (8, 0x1000)]
  | .rENG_VSTAT => [(4, 0x400000), (8, 0x1000)]
  | .rENG_VSLOT => [(4, 0x400000), (8, 0x1000)]
  | .rENG_VPOS => [(4, 0x400000), (8, 0x1000)]
  | .rENG_VISSUE => [(4, 0x400000), (8, 0x1000)]
  | .rENG_VCHOL_CNT => [(4, 0x400000), (8, 0x1000)]
  | .rENG_VEMPTY_CNT => [(4, 0x400000), (8, 0x1000)]
  | .rRING_MAP => [(4, 0x400000), (2, 0x8)]
  | .rRING_REST => [(4, 0x400000)]
  | .rRING_STAT => [(4, 0x400000)]
  | .rRING_VFAULT => [(4, 0x400000)]
  | .rRING_VFAULT_SC => [(4, 0x400000)]
  | .rRING_FLITS_CW => [(4, 0x400000)]
  | .rRING_FLITS_CCW => [(4, 0x400000)]
  | .rRING_DISCARD => [(4, 0x400000)]
  | .rTRK_CFG => [(4, 0x400000), (256, 0x100)]
  | .rTRK_AMAX => [(4, 0x400000), (256, 0x100)]
  | .rTRK_BIN => [(4, 0x400000), (256, 0x100), (16, 0x8)]
  | .rOCM_CTL => [(4, 0x400000)]
  | .rOCM_ECC_CE => [(4, 0x400000)]
  | .rOCM_ECC_UE => [(4, 0x400000)]
  | .rOCM_ECC_UE_SC => [(4, 0x400000)]
  | .rOCM_CE_CNT => [(4, 0x400000)]
  | .rOCM_UE_CNT => [(4, 0x400000)]
  | .rOCM_YS_CONFLICT => [(4, 0x400000)]
  | .rOCM_NET_WAIT => [(4, 0x400000)]
  | .rOCM_SCRUB_PASSES => [(4, 0x400000)]
  | .rOCM_FENCED_DROP => [(4, 0x400000)]
  | .rOCM_STALL => [(4, 0x400000), (944, 0x8)]
  | .rSEC_BOOT => []
  | .rSEC_FW => []
  | .rSEC_LOFT => []
  | .rSEC_ID => []
  | .rSEC_SETTINGS => []
  | .rSEC_IDPUB => [(8, 0x8)]
  | .rSEC_IMGKEY => [(8, 0x8)]
  | .rSEC_SPDM_CNT => []
  | .rSEC_SPDM_ERR_CNT => []

/-- Every register name, in the order of the blocks. -/
def allRegNames : List RegName :=
  List.flatten [
  [.rDEV_IDENT, .rDEV_SERIAL, .rDEV_CTL, .rHST_CTL, .rHST_STATE, .rHST_SEQ],
  [.rHST_CMDS, .rHST_EVENTS_LOST, .rHST_BAR2_WR_CNT, .rHST_WDOG_CNT, .rSCH_CTL, .rSCH_SC],
  [.rSCH_TC, .rSCH_HOLD_STAT, .rSCH_HOLD_FREEZE, .rSCH_HOLD_LEN, .rSCH_HOLD_TOTAL, .rSCH_HOLD_CNT],
  [.rSCH_SB_USE, .rSCH_VIOL_STAT, .rSCH_VIOL_SC, .rSCH_NATIVE, .rSCH_PAD, .rSCH_RUN_BASE],
  [.rSCH_MARK_SC, .rSCH_SLIP_EVENTS, .rSCH_SLIP_MARKS, .rSCH_SLIP_LAST, .rCLK_CTL, .rCLK_OP],
  [.rCLK_OP_AT, .rCLK_PL, .rCLK_PL_CTL, .rCLK_THERM, .rCLK_PD_CTL, .rCLK_PD_STAT],
  [.rCLK_STRETCH_CTL, .rCLK_REGION, .rCLK_AVS, .rCLK_PLL, .rCLK_STRETCH_CNT, .rCLK_PACE_CNT],
  [.rCLK_MISS_CNT, .rCLK_OPCHG_CNT, .rCLK_RELOCK_CNT, .rCLK_THROTTLE_MS, .rCLK_AVS_ERR_CNT, .rNOC_CTL],
  [.rNOC_CFG, .rNOC_FAILED, .rNOC_BRIDGE, .rNOC_LAT_MAX, .rNOC_P0_FLITS, .rNOC_P1_FLITS],
  [.rNOC_P2_FLITS, .rNOC_ADD_FLITS, .rNOC_BR_RETRY, .rNOC_DETOUR_FLITS, .rNOC_ROUTE, .rFAB_CTL],
  [.rFAB_ID, .rFAB_TIME_STAT, .rFAB_TIME_OFS, .rFAB_PORT_STAT, .rFAB_PORT_EQ, .rFAB_PCNT],
  [.rFAB_DROP_CNT, .rFAB_LAND_CNT, .rFAB_NOROUTE_CNT, .rFAB_TIME_EXCH, .rFAB_RED_UNITS, .rFAB_ROUTE],
  [.rFAB_RSTAGE, .rMEM_CTL, .rMEM_STAT, .rMEM_CAL, .rMEM_ECC_CE, .rMEM_ECC_UE],
  [.rMEM_ECC_UE_SC, .rMEM_LAT_MAX, .rMEM_RD_BYTES, .rMEM_WR_BYTES, .rMEM_CE_CNT, .rMEM_UE_CNT],
  [.rMEM_ODECC_CNT, .rMEM_R2X_US, .rUPD_CTL, .rUPD_STAT, .rUPD_FAULT, .rUPD_FAULT_POS],
  [.rUPD_PARAMS, .rUPD_CMDS, .rUPD_SETCOEF_CNT, .rUPD_BUSY, .rUPD_GCFG, .rUPD_GSTAT],
  [.rUPD_COEF, .rUPD_TAG, .rXFR_CTL, .rXFR_STAT, .rXFR_FAULT, .rXFR_FAULT_C01],
  [.rXFR_FAULT_C23, .rXFR_FAULT_C4, .rXFR_FAULT_HADDR, .rXFR_BYTES, .rXFR_DESCS, .rXFR_PRI_CNT],
  [.rXFR_LOST_CNT, .rXFR_WIN_BASE, .rXFR_WIN_CFG, .rREC_CTL, .rREC_STAT, .rREC_FAULT],
  [.rREC_FAULT_SC, .rREC_BOUNDS_ADDR, .rREC_OVF_ADDR, .rREC_TRIG_EN, .rREC_TRIG_SET, .rREC_FENCE],
  [.rREC_LOST_CNT, .rREC_LOGIC_CE_CNT, .rREC_LOGIC_UE_CNT, .rREC_BOUNDS_CNT, .rREC_SET, .rREC_RECORD],
  [.rMON_CFG, .rMON_LIMIT, .rMON_MINMAX, .rMON_SAMPLES, .rMON_BIN, .rENG_MCTL],
  [.rENG_MTOL, .rENG_MSTAT, .rENG_MSDC, .rENG_MSDC_SC, .rENG_MMANGER, .rENG_MSIDE],
  [.rENG_MSTEPS, .rENG_MBUBBLE, .rENG_MCONFLICT, .rENG_MSDC_CNT, .rENG_MSKIP_CNT, .rENG_VCTL],
  [.rENG_VSTAT, .rENG_VSLOT, .rENG_VPOS, .rENG_VISSUE, .rENG_VCHOL_CNT, .rENG_VEMPTY_CNT],
  [.rRING_MAP, .rRING_REST, .rRING_STAT, .rRING_VFAULT, .rRING_VFAULT_SC, .rRING_FLITS_CW],
  [.rRING_FLITS_CCW, .rRING_DISCARD, .rTRK_CFG, .rTRK_AMAX, .rTRK_BIN, .rOCM_CTL],
  [.rOCM_ECC_CE, .rOCM_ECC_UE, .rOCM_ECC_UE_SC, .rOCM_CE_CNT, .rOCM_UE_CNT, .rOCM_YS_CONFLICT],
  [.rOCM_NET_WAIT, .rOCM_SCRUB_PASSES, .rOCM_FENCED_DROP, .rOCM_STALL, .rSEC_BOOT, .rSEC_FW],
  [.rSEC_LOFT, .rSEC_ID, .rSEC_SETTINGS, .rSEC_IDPUB, .rSEC_IMGKEY, .rSEC_SPDM_CNT],
  [.rSEC_SPDM_ERR_CNT]]

/-- The offset of one register of an array: its indices, outermost first. -/
def regOffset (r : RegName) (idx : List Nat) : Nat :=
  (List.zipWith (fun i d => i * d.2) idx r.dims).foldl (· + ·) r.base

/-- The indices an offset inside a register's array stands for, if it is the offset of one of its registers. -/
def splitOffset : List (Nat × Nat) → Nat → Option (List Nat)
  | [], o => if o = 0 then some [] else none
  | (n, stride) :: ds, o =>
    if o / stride < n then (splitOffset ds (o % stride)).map (o / stride :: ·) else none

/-- The register at an offset of control space, with its indices; none where R10 gives no register. -/
def findReg : List RegName → Nat → Option (RegName × List Nat)
  | [], _ => none
  | r :: rs, o =>
    if o < r.base then findReg rs o
    else match splitOffset r.dims (o - r.base) with
      | some idx => some (r, idx)
      | none => findReg rs o

/-- The register at an offset of control space (R10). -/
def regAt (o : Nat) : Option (RegName × List Nat) := findReg allRegNames o

/-- A register's static value at reset: its fields at their reset column. -/
def RegName.resetWord (r : RegName) : Nat :=
  r.fields.foldl (fun w f => putBits w f.hi f.lo f.reset) 0

end Sys2Proof.Machine
end

