-- ==== Sys2Proof/Machine/State.lean ====
section
/-! DEFINITION. The state of the part as plain data: what every chapter of the spec gives it, the queue of waiting commands,
and the state right after reset, which is entry to READY at the end of boot (log entry 1). -/
namespace Sys2Proof.Machine

/-- Reasons a command stops with a fault. No meaning of this model raises one: the spec's own faults are next states
(R352, R245), and accesses outside a space are memory-bounds faults with an effect (R353). -/
inductive Fault where
  /-- Raised by no command: kept so that the type of reasons is a closed one. Safe. -/
  | noSuchSpace
  deriving DecidableEq, Repr

/-- Reasons a command is refused. -/
inductive Refusal where
  /-- Raised by an arm of `exec` whose command has no meaning yet, with the command's mnemonic. Safe: nothing happens. -/
  | notModelled (mnemonic : String)
  deriving DecidableEq, Repr


/-! ## Host ports and command packets (16) -/

/-- Run states of Table 16-10 (R332). -/
inductive PartState where
  | off | boot | ready | loaded | running | held | halted | faulted
  deriving DecidableEq, Repr

/-- Status codes of Table 16-7 (R321). -/
inductive Status where
  | ok | busy | notClaimed | badOpcode | badParam | imageHeader | imageSignature | latencyProfile | allocation
  | membershipEpoch | bufferTooSmall | fenced | transferFault | versionFault | scheduleViolation | sdcDetected
  | timeout | indexOrder | stagingEmpty | settingsReset
  deriving DecidableEq, Repr

/-- A reply or an event as it is laid out in a reply entry (Table 16-5), but for PHASE, which the ring gives it. -/
structure Reply where
  tag    : Nat
  opc    : Nat
  status : Status
  event  : Bool
  lost   : Bool
  sq     : Nat
  kind   : Nat
  seq    : Nat
  result : Nat
  deriving DecidableEq, Repr

/-- One submission ring and the reply ring it pairs with, as the port's BAR0 holds them (Table 16-2). `used` counts the
reply entries written and not yet freed, `reserved` those that fetched commands have reserved (R314, R315). -/
structure RingPair where
  sqBase : Nat := 0
  sqEn   : Bool := false
  sqErr  : Bool := false
  sqSize : Nat := 0
  rqBase : Nat := 0
  rqEn   : Bool := false
  rqErr  : Bool := false
  rqSize : Nat := 0
  sqTail : Nat := 0
  rqHead : Nat := 0
  sqHead : Nat := 0
  rqTail : Nat := 0
  phase  : Bool := true
  used   : Nat := 0
  reserved : Nat := 0
  waiting : List (Bool × Reply) := []
  deriving DecidableEq, Repr

/-- What the host has enabled in a port's configuration space (R309, R243, R244, R335). -/
structure PcieCfg where
  bme   : Bool := false
  ats   : Bool := false
  pri   : Bool := false
  tag10 : Bool := false
  tag14 : Bool := false
  ro    : Bool := false
  ns    : Bool := false
  mps   : Nat := 128
  /-- The MSI-X capability's function mask. -/
  fnMask : Bool := false
  /-- Outstanding page requests the host allows (R244). -/
  priAlloc : Nat := 0
  deriving DecidableEq, Repr

/-- SPDM state of a port (R345): whether a version, the capabilities and the algorithms have been negotiated. -/
structure Spdm where
  version : Bool := false
  caps    : Bool := false
  algs    : Bool := false
  deriving DecidableEq, Repr

/-- A PCIe port (R309 to R315, R333 to R335). -/
structure HostPort where
  ring0 : RingPair := {}
  ring1 : RingPair := {}
  ring2 : RingPair := {}
  ring3 : RingPair := {}
  evLost : Nat := 0
  events : List Reply := []
  lostMark : Bool := false
  link  : Bool := true
  perst : Bool := false
  cfgReady : Bool := true
  cfg   : PcieCfg := {}
  msixMask : Nat := 0
  msixPend : Nat := 0
  spdm  : Spdm := {}
  /-- Commands the arbiter had seen when the port was reset: their replies are discarded (R335). -/
  gone  : List Nat := []
  deriving DecidableEq, Repr

/-- The I3C sideband (R336). -/
structure Sideband where
  addr : Option Nat := none
  eid  : Nat := 0
  /-- The endpoint that last sent a command: where events go (R336). -/
  host : Option Nat := none
  outstanding : Nat := 0
  waiting : List Reply := []
  lostMark : Bool := false
  deriving DecidableEq, Repr

/-- The long command in progress (R320), with what it still needs. -/
inductive LongWork where
  /-- LOAD_IMAGE in its writing pass: where the image lies, how long it is, and the DIGEST that was checked (R327). -/
  | load (src len : Nat) (digest : List Nat)
  /-- VERIFY_IMAGE, with the outcome of its checks (R326). -/
  | verify (st : Status)
  /-- RESTORE, with the bytes of the snapshot (R361). -/
  | restore (bytes : List Nat)
  /-- FW_STAGE_COMMIT (R347). -/
  | commit
  /-- FABRIC_TRAIN of the named ports (R270): those still training. -/
  | train (ports : Nat)
  deriving DecidableEq, Repr

/-- A command whose reply is owed: its header and sequence number. -/
structure Owed where
  hdr : Hdr
  opc : Nat
  seq : Nat
  deriving DecidableEq, Repr

structure LongCmd where
  owed : Owed
  work : LongWork
  deriving DecidableEq, Repr

/-! ## The part record, the boot flash and the settings (17) -/

/-- What the signed part record holds (R340), for one yard. -/
structure YardRecord where
  failedM : Nat := 0
  failedV : Nat := 0
  failedS : Nat := 0
  failedX : Nat := 0
  failedRouters : Nat := 0
  rest0 : Nat := 0
  rest1 : Nat := 17
  skipV : Option Nat := some 8
  skipS : Option Nat := some 4
  deriving DecidableEq, Repr

/-- The part record (R340). `verifies` says whether its digest and signature verify (R342). -/
structure PartRecord where
  verifies : Bool := true
  serial   : Nat := 0
  steppingB0 : Bool := false
  yard0 : YardRecord := {}
  yard1 : YardRecord := {}
  yard2 : YardRecord := {}
  yard3 : YardRecord := {}
  domains : Nat := 0xFFFFFFFFFF
  ports   : Nat := 0xFFFFFF
  preset  : Nat := 0
  minSvn  : Nat := 0
  revoked : Nat := 0
  /-- Rail voltage in units of the AVSBus target, rail and operating point (R289). -/
  volts   : List (List Nat) := []
  deriving DecidableEq, Repr

/-- State of the loft (Table 17-12). -/
inductive LoftState where
  | empty | staging | complete | committed
  deriving DecidableEq, Repr

/-- A public key with its identifier (R349). -/
structure KeyEntry where
  id  : Nat
  key : List Nat
  deriving DecidableEq, Repr

/-- The key block and the variable block of the settings (R348, R349). -/
structure Settings where
  owner  : Option KeyEntry := none
  images : List KeyEntry := []
  eid    : Nat := 0
  dumpOnFault : Bool := false
  deriving DecidableEq, Repr

/-- One copy of the settings in flash (R348). -/
structure SettingsCopy where
  verifies : Bool := false
  fmt  : Nat := 0
  gen  : Nat := 0
  data : Settings := {}
  deriving DecidableEq, Repr

/-- A flash operation in progress: the command that completes when it finishes (R347, R367), and the settings that it writes; of a
staged header or piece none, since the loft stands as the command has left it (R318). -/
structure FlashOp where
  owed : Option Owed
  settings : Option Settings
  deriving DecidableEq, Repr

/-- The header of the firmware that the default flash holds (Table 17-6): both steppings, versions 0, settings format 1, a body
of 256 zero bytes (log entry 2). -/
def defaultFirmware : List Nat :=
  [0x55, 0x53, 0x4C, 0x46, 0x00, 0x01, 0x00, 0x02, 0x56, 0x44, 0x34, 0x54, 3, 1, 0, 0, 0, 0, 1, 0, 0, 0, 0, 0, 0, 1] ++
    List.replicate 486 0

/-- The boot flash but for the part record (Table 17-1). -/
structure Flash where
  activeHdr  : List Nat := defaultFirmware
  activeBody : List Nat := List.replicate 256 0
  loft      : LoftState := .empty
  loftHdr   : List Nat := []
  loftBody  : List Nat := []
  /-- The settings in force. -/
  active : Settings := {}
  copyA : SettingsCopy := { verifies := true, fmt := 1, gen := 1 }
  copyB : SettingsCopy := {}
  /-- The dumps: slot, and the record buffer as dumped (R368). -/
  dumps : List (Nat × List (Nat × Nat)) := []
  nextSlot : Nat := 0
  ops : List FlashOp := []
  deriving DecidableEq, Repr

/-- Boot and identity (R341 to R345). -/
structure BootState where
  /-- Last boot stage completed, 0 to 9 (Table 17-2). -/
  stage : Nat := 9
  stopped : Bool := false
  resetPin : Bool := true
  testMode : Bool := false
  fwReady : Bool := true
  fmtInUse : Nat := 1
  resetEvent : Option Nat := none
  /-- The management controller is restarting (R337): replies it owes. -/
  restarting : Bool := false
  deriving DecidableEq, Repr

/-! ## Recorder, monitors, faults and snapshots (18) -/

/-- A trigger on its way to the recorder (R364). -/
structure Trigger where
  source : Nat
  unit   : Nat
  tc     : Nat
  deriving DecidableEq, Repr

structure Recorder where
  queue : List Trigger := []
  lost  : Bool := false
  /-- Records written since the last CLEAR, up to 8,192 (R364). -/
  since : Nat := 0
  /-- Index of the most recently written record (R365). -/
  last  : Option Nat := none
  /-- A dump in progress, into this slot (R368). -/
  dump  : Option Nat := none
  /-- When a dump on fault starts, in units of 1/9 tc (R368). -/
  dumpAt : Option Nat := none
  deriving DecidableEq, Repr

/-- The stopping fault that ends the run (R352): the sc it was detected in, whether RUN_FAULT has been raised. -/
structure FaultStop where
  sc     : Nat
  raised : Bool
  deriving DecidableEq, Repr

/-- The SNAPSHOT_AT that is pending (R359). -/
structure SnapReq where
  owed  : Owed
  step  : Nat
  sc    : Nat
  dst   : Nat
  spaces : Nat
  /-- The freeze has been broadcast. -/
  frozen : Bool
  /-- The copy is being written. -/
  writing : Bool
  /-- Bytes of the whole snapshot. -/
  len   : Nat
  deriving DecidableEq, Repr

/-! ## Schedule, hold and time (02) and the loaded image (09) -/

/-- One scoreboard entry (R28 to R31): the yard it is taken in, its item, due cycle, the hold cause of Table 2-2 that a late
completion raises, whether it has completed, the anchor it is bound to, and whether its horizon has been examined. -/
structure SbEntry where
  yard  : Nat
  item  : Nat
  due   : Nat
  cause : Nat
  done  : Bool
  anchor : Option Nat
  checked : Bool
  deriving DecidableEq, Repr

/-- The hold controller (R32 to R37, R389). -/
structure Hold where
  /-- Freeze cycle of the freeze that is pending or in effect. -/
  freeze : Option Nat := none
  /-- The freeze has taken effect: the engines are frozen. -/
  held   : Bool := false
  /-- Periods until the engines resume, once the release has been broadcast. -/
  releasing : Option Nat := none
  /-- The freeze that is pending or in effect is the hold of a cause of Table 2-2, not only a stopping fault's. -/
  isHold : Bool := false
  halt   : Bool := false
  snap   : Bool := false
  cause  : Nat := 0
  causeSet : Nat := 0
  /-- REFRESH2X, RETRY and PRI of Table 2-9. -/
  flags  : Nat := 0
  /-- SCH_HOLD_FREEZE. -/
  freezeReg : Nat := 0
  /-- Periods the freeze in effect has lasted. -/
  periods : Nat := 0
  /-- An anchor whose own freeze waits for an earlier one (R389). -/
  waiting : Bool := false
  /-- The freeze in effect is at the anchor: instant it took effect, in 1/9 tc. -/
  frozenAt : Nat := 0
  /-- At instant Q, whether the bound receives had completed and no other reason to hold was in force (R46). -/
  judged : Option Bool := none
  /-- The anchor is met: its release is on the way (R46). -/
  met : Bool := false
  /-- A slip has been found and its bound receives are awaited; then the new mark, once chosen (R47). -/
  slip : Bool := false
  slipMark : Option Nat := none
  /-- The anchor is evaluated again after a RESUME, so that SLIP_HALT does not apply (R48). -/
  again : Bool := false
  /-- SLIP_HALT as it stood when the anchor's freeze was to be broadcast: a change of it takes effect at the next anchor
  (Table 2-7). -/
  slipHalt : Bool := false
  deriving DecidableEq, Repr

/-- Where a stream stands (R25, R178): the next word, the loops that are open as (first word, last word, passes left),
the sc at which the next word issues, whether it has ended. -/
structure StreamPos where
  pc    : Nat
  loops : List (Nat × Nat × Nat)
  next  : Nat
  ended : Bool
  deriving DecidableEq, Repr

/-- A STREAM section (R192): yard, kind (0 M, 1 V, 2 S), logical index, start offset, words. -/
structure StreamImg where
  yard  : Nat
  kind  : Nat
  idx   : Nat
  start : Nat
  words : List Nat
  deriving DecidableEq, Repr

/-- ALLOC records (Table 9-15). -/
structure BufferRec where
  yard : Nat
  space : Nat
  eng : Nat
  id : Nat
  off : Nat
  len : Nat
  deriving DecidableEq, Repr
structure RegionRec where
  stashed : Bool
  owner : Nat
  region : Nat
  cur : Nat
  base : Nat
  len : Nat
  slotOff : Nat
  deriving DecidableEq, Repr
structure ShardRec where
  owner : Nat
  cfmt : Nat
  hasRegion : Bool
  shard : Nat
  region : Nat
  count : Nat
  rowlen : Nat
  row0 : Nat
  col0 : Nat
  wbase : Nat
  s1base : Nat
  s2base : Nat
  deriving DecidableEq, Repr
structure SideRec where
  yard : Nat
  eng : Nat
  count : Nat
  base : Nat
  deriving DecidableEq, Repr

/-- A tensor walk of the TENSOR section (R194). -/
structure WalkRec where
  yard : Nat
  eng : Nat
  tid : Nat
  rows : Nat
  cols : Nat
  orient : Bool
  walk : Bool
  deriving DecidableEq, Repr

/-- The image that is loaded (R190 to R195). TIMETABLE, TREE and PREFETCH records are kept as the bytes of the section. -/
structure Image where
  multi  : Bool
  seed   : Nat
  profile : List Nat
  epoch  : Nat
  devId  : Nat
  digest : List Nat
  streams : List StreamImg
  buffers : List BufferRec
  regions : List RegionRec
  shards  : List ShardRec
  sides   : List SideRec
  groups  : List (List Nat)
  anchors : List (Nat × Nat)
  walks   : List WalkRec
  timetables : List (List Nat)
  trees   : List (List Nat)
  prefetch : List (List Nat)
  /-- DATA blocks: device physical address, where the bytes start in the image, length (R195). -/
  data    : List (Nat × Nat × Nat)
  deriving DecidableEq, Repr

/-- Where a flit's header sends it (R252): destination yard, space, logical engine and offset; an adder node's address has no yard, and
applies in whichever yard its output lands (R262); a gradient port; a fabric port, for bytes of a chunk of a fixed-latency SEND
(engine, context, chunk, offset). -/
inductive NetDest where
  | mem (yard : Option Nat) (space eng off : Nat)
  | grad (unit : Nat)
  | fabric (x no chunk off : Nat)
  | nowhere
  deriving DecidableEq, Repr

/-- What a fixed-latency operation writes when its latency has elapsed (R26, R142): a register of an engine, bytes of
memory, a tracker entry, an origin. -/
inductive Target where
  /-- Elements `lo` on of vector register `v`, 32 bits each or 16 (B16); an element that is not written is `none` (R142). -/
  | vreg (e : VEng) (v : Nat) (b16 : Bool) (lo : Nat) (vals : List (Option Nat))
  | vmask (e : VEng) (m lo : Nat) (bits : List (Option Bool))
  /-- Sticky flags of ENG_VSTAT (R145, R158). -/
  | vstat (e : VEng) (flags : Nat)
  /-- Slots that VREL frees (R151). -/
  | release (e : VEng) (slots : Nat)
  | sreg (e : SEng) (r : Nat) (v : Nat)
  /-- The high half of a scalar register (SLIH, R184). -/
  | sregHigh (e : SEng) (r : Nat) (v : Nat)
  | areg (e : SEng) (r : Nat) (v : Nat)
  /-- Bytes at a device physical address. -/
  | bytes (addr : Nat) (bs : List Nat)
  /-- Scattered bits: address, mask and value of each byte (R117, R122). -/
  | scatter (l : List (Nat × Nat × Nat))
  /-- FP32 values added into the words from an address on (R93). -/
  | accum (addr : Nat) (vals : List Nat)
  /-- TRKCLR of an entry of a yard (R70). -/
  | tracker (yard entry base : Nat)
  /-- FP32 values recorded in a tracker entry of a yard (R69). -/
  | track (yard entry : Nat) (vals : List Nat)
  /-- SORG of a side-table entry or a walk (R188). -/
  | origin (e : MEng) (walk : Bool) (entry r0 c0 : Nat)
  /-- Bytes a gradient port accepts (R170, R257). -/
  | grad (unit : Nat) (bs : List Nat)
  /-- A write an engine presents to the banks of an instance on a port; it lands `slack` sc later (R202, R203, R205). -/
  | offer (y space e port slack : Nat) (t : Target)
  /-- What is written `lat` sc after the rows of a bank access have been served (R202 to R205). -/
  | held (acc lat : Nat) (t : Target)
  /-- A scheduled flit's write at the end of its slack of 4 sc at a memory's network port (R205, R259): it is in place `lat` sc later;
  the clock region that would detect a late one. -/
  | slack (acc region lat : Nat) (t : Target)
  /-- A scheduled flit whose data a network port has read by then, or has not (R205, R259). -/
  | source (acc region : Nat) (t : Target)
  /-- A flit of an endpoint handed to a router's local input in a half of the sc (R252, R256, R257). -/
  | hand (yard end_ router port half : Nat) (dest : NetDest) (data : List (Option Nat))
  deriving DecidableEq, Repr

/-- A result in flight: the sc at which it is written, its issue order, and what it writes. -/
structure Delivery where
  due    : Nat
  order  : Nat
  target : Target
  deriving DecidableEq, Repr

/-- The schedule, the hold controller and the time counter. -/
structure Sched where
  /-- SCH_TC, and the units of 1/9 tc since it last counted (R42, R288). -/
  tc    : Nat := 0
  sub   : Nat := 0
  /-- Units of 1/9 tc that have passed on this device's own TREF, whatever SCH_TC is set to. -/
  ref   : Nat := 0
  /-- The last time mark whose start has been handled (R43). -/
  mark  : Nat := 0
  /-- SCH_SC (R23), and whether sc 0 of the run has begun (R45). -/
  sc    : Nat := 0
  begun : Bool := false
  /-- What SCH_SC holds until the run's first cycle (R24). -/
  before : Option Nat := none
  base  : Nat := 0
  slips : Nat := 0
  /-- Position in the anchor table (R45). -/
  anchor : Nat := 0
  hold  : Hold := {}
  board : List SbEntry := []
  nextItem : Nat := 0
  /-- Completions on their way to the scoreboard: items (R31). -/
  reports : List Nat := []
  inFlight : List Delivery := []
  order  : Nat := 0
  /-- Position of every stream that has words left, keyed by engine number (R25). -/
  streams : List (Nat × StreamPos) := []
  /-- Units that have stopped on a fault (R38, R352), as engine numbers. -/
  stopped : List Nat := []
  /-- The last sc in which an issued word's latency or due cycle elapses (R192). -/
  lastBusy : Nat := 0
  stop  : Option FaultStop := none
  image : Option Image := none
  deriving DecidableEq, Repr

/-! ## Transfer engines and host windows (12) -/

/-- The fields of an INJECT extension (Tables 5-2, 12-3). -/
structure InjExt where
  stop : Nat := 0
  ccw  : Bool := false
  /-- RING or SCALED holds a value other than 0 and 1 (R231). -/
  odd  : Bool := false
  interval : Nat := 0
  laps : Nat := 0
  fmt  : Nat := 0
  scaled : Bool := false
  kb   : Nat := 0
  lb   : Nat := 0
  g    : Nat := 0
  lane0 : Nat := 0
  region : Nat := 0
  gen  : Nat := 0
  first : Nat := 0
  flits : Nat := 0
  edge : Nat := 0
  snoop : List Nat := []
  deriving DecidableEq, Repr

/-- A descriptor (Table 12-1); counts are the real counts, strides are signed. -/
structure Desc where
  kind : Nat
  prio : Bool
  dev  : Nat
  len  : Nat
  src  : Nat
  dst  : Nat
  counts : List Nat
  sstr : List Int
  dstr : List Int
  tag  : Nat
  p    : Nat
  tdim : Nat
  anchor : Nat
  fixlat : Nat
  cperiod : Nat
  tperiod : Nat
  inj  : InjExt
  /-- A chunk's destination overlaps a chunk's source: the bytes written are not defined (R233). -/
  clash : Bool := false
  deriving DecidableEq, Repr

/-- A tile of a stream, or the whole of another descriptor: its scoreboard item, bytes completed, whether reported. -/
structure XTile where
  tile : Nat
  item : Nat
  done : Nat
  reported : Bool
  deriving DecidableEq, Repr

/-- What a descriptor waits for in address translation (R244): a Translation Completion, a PRG Response to a page request
that times out at an instant in 1/9 tc, or a free page-request slot. -/
inductive XlatWait where
  | translating (page : Nat)
  | paging (page expiry : Nat)
  | slot (page : Nat)
  deriving DecidableEq, Repr

/-- A host window fault that stops a descriptor: cause of Table 12-5, window, first undelivered chunk, host address. -/
structure XStop where
  cause : Nat
  window : Nat
  chunk : Nat
  haddr : Nat
  recorded : Bool
  deriving DecidableEq, Repr

/-- A variable-latency descriptor in a context, or waiting for one (R234): the next chunk and byte to issue, the chunks that
may be issued so far, its tiles. -/
structure XCtx where
  no    : Nat
  desc  : Desc
  issue : Nat
  due   : Nat
  chunk : Nat := 0
  off   : Nat := 0
  limit : Nat
  tiles : List XTile
  /-- A tile of it found no free scoreboard entry: the engine issues no more of them (R30). -/
  full  : Bool := false
  wait  : Option XlatWait := none
  stop  : Option XStop := none
  /-- Bytes of a SEND's chunks that have come to the fabric port (R247): chunk, offset, bytes. -/
  outbox : List (Nat × Nat × List Nat) := []
  deriving DecidableEq, Repr

/-- A fixed-latency descriptor (R234, R235): the next chunk to present, and the flits of it presented so far; for GRAD the
bytes delivered; for SEND the bytes that have come to the fabric port (chunk, offset, bytes), the chunks made into packets, and those
whose acceptance has been judged (R247). -/
structure XFix where
  no    : Nat
  desc  : Desc
  issue : Nat
  next  : Nat := 0
  flits : Nat := 0
  sent  : Nat := 0
  judged : Nat := 0
  outbox : List (Nat × Nat × List Nat) := []
  deriving DecidableEq, Repr

/-- Where a request stands (R220, R234, R252): its VC0 flit is on its way to the controller of its source; presented at its source;
its data on the way to its destination; presented at its destination; a completion notice on its way to the engine. -/
inductive XStage where
  | asked
  | reading
  | moving
  | writing
  | noticed
  deriving DecidableEq, Repr

/-- An outstanding request (R234): a number of its own, its context, chunk, byte offset in the chunk, length, deadline (R239), where
it stands, the sc it was last presented in (R220), whether a write's VC0 flit has yet to reach its controller, bytes of its data
that have yet to come, the bytes that have come (offset in the request, bytes), the host address it was issued with, and the
translated page it uses. -/
structure XReq where
  id    : Nat
  ctx   : Nat
  chunk : Nat
  off   : Nat
  len   : Nat
  deadline : Nat
  stage : XStage
  sc    : Nat := 0
  asking : Bool := false
  left  : Nat := 0
  data  : List (Nat × List Nat) := []
  haddr : Nat := 0
  page  : Option (Port × Nat) := none
  deriving DecidableEq, Repr

/-- One transfer engine. -/
structure Xfer where
  ctxs : List XCtx := []
  waiting : List XCtx := []
  fixed : List XFix := []
  reqs  : List XReq := []
  /-- Contexts with a pending fault, oldest first (R245). -/
  faults : List Nat := []
  deriving DecidableEq, Repr

/-- A cached translation (R244): its first page of 4 KiB and how many it covers, with read and write permission. -/
structure AtsEntry where
  page  : Nat
  span  : Nat
  read  : Bool
  write : Bool
  deriving DecidableEq, Repr

/-- Address translation of a port (R244): the cache, oldest entry first, and invalidations to answer, by their first page with the
numbers of the requests that must complete first. -/
structure Ats where
  cache : List AtsEntry := []
  invalidating : List (Nat × List Nat) := []
  deriving DecidableEq, Repr

/-- An injection buffer (R110): the descriptor, its scoreboard item, the bytes of the flits read so far (flit, the slot they were read
from, offset in the flit, bytes), the next flit to inject. -/
structure InjBuf where
  yard : Nat
  desc : Desc
  item : Nat
  bytes : List (Nat × Nat × Nat × List Nat)
  next : Nat
  deriving DecidableEq, Repr


/-! ## Matrix engines (04, 06) and the lunge rings (05) -/

/-- A manger entry (R86): one step's bits of 16 lanes, and 16 scale bytes where a block of scales begins (R81). -/
structure Entry where
  lanes  : List Nat
  scales : List Nat
  deriving DecidableEq, Repr

/-- A tile-memory read on its way to the mangers (R75): edge (true row), step, entries of every manger of the edge, and the accesses it
has at the banks (R202). -/
structure TileRead where
  row : Bool
  step : Nat
  groups : List (Nat × Entry)
  accs : List Nat
  deriving DecidableEq, Repr

/-- An MMA that has issued (R74, R75): its fields, the base address formed, the sc of its count 0, the steps taken, the tile
reads and deliveries made per edge. -/
structure MmaRun where
  f      : MmaF
  home   : Nat
  first  : Nat
  taken  : Nat := 0
  readRow : Nat := 0
  readCol : Nat := 0
  fedRow : Nat := 0
  fedCol : Nat := 0
  deriving DecidableEq, Repr

/-- An accumulator of the array (R72): values by paddock, row and column (none listed: all +0), the shape they were built
in, the completion cycle of the last step, and the checksum cells with their magnitudes by physical row and column (R94). -/
structure AccState where
  vals   : List Nat := []
  shape  : Nat := 0
  ready  : Nat := 0
  rowSum : List Nat := []
  rowMag : List Nat := []
  colSum : List Nat := []
  colMag : List Nat := []
  deriving DecidableEq, Repr

/-- A drain that has issued (R89, R92): its fields and address, the profile and side entry as read, the origins it started
from, the tensor walk (rows, columns, ORIENT, WALK), the accumulator's checks as issued, and what its rows have given. -/
structure DrainRun where
  f      : MdrnF
  addr   : Nat
  issue  : Nat
  /-- The operands give a result the spec does not define (R85, R89, R90, R120, R121). -/
  undef  : Bool
  profile : List Nat
  side   : Option (List Nat)
  sideOrg : Nat × Nat
  walk   : Option WalkRec
  walkOrg : Nat × Nat
  tol    : Nat
  checks : AccState
  next   : Nat := 0
  /-- The access of its profile and side entry at the banks (R202). -/
  acc    : Nat := 0
  /-- Rows read and not yet passed: the sc they were read in, the access of their side reads, their accumulator values. -/
  read   : Nat := 0
  rows   : List (Nat × Option Nat × List Nat) := []
  raw    : List Nat := []
  /-- Encodings of the rows to come of a strip whose block scales are formed (R65). -/
  held   : List Nat := []
  scales : List Nat := []
  deriving DecidableEq, Repr

/-- One logical matrix engine. -/
structure MState where
  /-- Base registers written since START (R179). -/
  base   : List (Nat × Nat) := []
  mmas   : List MmaRun := []
  reads  : List TileRead := []
  /-- A RESHAPE in progress: issue sc and shape (R84). -/
  reshape : Option (Nat × Nat) := none
  /-- The sc from which bubbles are counted (R78), and the bubble sc last counted. -/
  count0 : Nat := 0
  bubble : Nat := 0
  mangers : List (Nat × List Entry) := []
  /-- Block scales in force, by manger (R63, R81), and FP32 operands part-way in (R73). -/
  scales : List (Nat × List Nat) := []
  part   : List (Nat × List Nat) := []
  accA   : AccState := {}
  accB   : AccState := {}
  drains : List DrainRun := []
  /-- Origins of side entries and of tensor walks that differ from (0, 0) (R122, R182). -/
  sideOrg : List (Nat × Nat × Nat) := []
  walkOrg : List (Nat × Nat × Nat) := []
  /-- The sc in which a SORG last took effect on an entry, a walk's keyed 256 + its index (R182). -/
  orgSet : List (Nat × Nat) := []
  /-- The last step: its sc, the shape, and which edges came from the rings (R84). -/
  last : Option (Nat × Nat × Bool × Bool) := none
  /-- The sc of the last ring delivery, and the mangers before it (R105). -/
  ringAt : Option Nat := none
  ringBefore : List (Nat × List Entry) := []
  deriving DecidableEq, Repr

/-- A flit on a lunge ring (R99, R100): where and when it left, its descriptor's fields, its index, its bytes, the
deliveries made (16 · lap + engine). -/
structure RingFlit where
  yard : Nat
  ccw  : Bool
  stop : Nat
  left : Nat
  inj  : InjExt
  idx  : Nat
  data : List Nat
  side : List Nat
  done : List Nat
  /-- The sc in which it left its slot: copies taken before are still in the shift lanes (R100, R103). -/
  out  : Option Nat := none
  deriving DecidableEq, Repr

/-! ## Vector and scalar engines (07, 09) -/

/-- One logical vector engine: its base, vector and mask registers (R141). -/
structure VState where
  base  : List (Nat × Nat) := []
  regs  : List (Nat × List Nat) := []
  masks : List (Nat × Nat) := []
  deriving DecidableEq, Repr

/-- One logical scalar engine (R184). -/
structure SState where
  regs : List (Nat × Nat) := []
  addr : List (Nat × Nat) := []
  deriving DecidableEq, Repr


/-! ## On-chip banks and error correction (10, 11) -/

/-- A row of a bank that an access waits for (R201 to R204): the memory by physical position, the engine it serves, the port, the
priority of network traffic (0 to 2), the row's first offset, the sc it has waited. -/
structure BankRow where
  acc   : Nat
  yard  : Nat
  space : Nat
  pos   : Nat
  eng   : Nat
  bank  : Nat
  write : Bool
  port  : Nat
  prio  : Nat
  off   : Nat
  waited : Nat := 0
  deriving DecidableEq, Repr

/-- The accesses at the banks: rows not yet served, the number of the next access, the conflict delays of the accesses that are
complete and whose users still ask for them. -/
structure Banks where
  rows : List BankRow := []
  next : Nat := 0
  keep : List Nat := []
  done : List (Nat × Nat) := []
  deriving DecidableEq, Repr

/-- An error that stands in a word of memory (R211, R225): whether it can be corrected, whether a read has found it and the
scrubber's rewriting is awaited (R213), the LANE of a DDR5 codeword (Table 11-9). -/
structure ErrWord where
  uncorr : Bool
  seen : Bool := false
  lane : Nat := 0
  deriving DecidableEq, Repr

/-- The scrubbers of the on-chip banks (R213): by yard, the arithmetic periods in which they have run and the passes counted; by
bank, the periods in which a port presented a read; the banks that have read their row in this period. -/
structure Scrubbers where
  time : List (Nat × Nat) := []
  passes : List (Nat × Nat) := []
  missed : List (Nat × Nat) := []
  now : List Nat := []
  deriving DecidableEq, Repr

/-! ## Update units and generation tags (08, 06) -/

/-- Tag state of a weight region (R134). -/
structure TagState where
  cur   : Nat := 0
  slot  : Nat := 0
  stash : Nat := 0
  stashValid : Bool := false
  pending : Nat := 0
  pendingValid : Bool := false
  deriving DecidableEq, Repr

/-- An update command as a unit receives it (Tables 8-5, 8-6), with its scoreboard item. -/
structure UpdCmd where
  opc   : Nat
  flags : Nat := 0
  group : Nat := 0
  gcount : Nat := 0
  cmask : Nat := 0
  shard : Nat := 0
  region : Nat := 0
  gen   : Nat := 0
  tid   : Nat := 0
  draw  : Nat := 0
  gaddr : Nat := 0
  ioff  : Nat := 0
  nidx  : Nat := 0
  vals  : List Nat := []
  item  : Nat := 0
  deriving DecidableEq, Repr

/-- The command an update lane is running: the coefficients latched (R169), the list of a sparse command, the parameters done. -/
structure UpdRun where
  cmd  : UpdCmd
  coef : List Nat
  rows : List Nat
  done : Nat := 0
  /-- Parameters processed in the present arithmetic period (R159). -/
  spent : Nat := 0
  deriving DecidableEq, Repr

/-- One update unit (R168): its queue, its pending releases, the running command. -/
structure UpdUnit where
  queue    : List UpdCmd := []
  releases : List UpdCmd := []
  running  : Option UpdRun := none
  /-- Groups with a DIV0 in this run (R362). -/
  div0     : List Nat := []
  deriving DecidableEq, Repr


/-! ## Clocks, power and the loops (15) -/

/-- A change of operating point that is scheduled (R294, R295): its target, the time count it takes effect at, whether the
new rail targets have been written, the rails whose regulator has failed to confirm. -/
structure OpChange where
  target : Nat
  time   : Nat
  faster : Bool
  written : Bool := false
  /-- The freeze of cause RELOCK has been broadcast (R296). -/
  frozen : Bool := false
  unconfirmed : List Nat := []
  deriving DecidableEq, Repr

/-- Clock regions, PLLs, rails and the power and thermal loops. Instants are in units of 1/9 tc. -/
structure Clocks where
  /-- Loop trim of each rail, in mV, by region (R303). -/
  trim : List (Nat × Int) := []
  /-- Operating point whose record voltages the rails have (R295). -/
  railOp : Nat := 0
  /-- Stretches of each region in the current window (R292). -/
  counts : List (Nat × Nat) := []
  /-- When each region last stretched, in the count `free` (R291). -/
  lastAt : List (Nat × Nat) := []
  /-- Regions that stretched in each of the last 1,024 windows, newest first, bit r for region r (R303). -/
  history : List Nat := []
  /-- The free-running count: arithmetic periods outside a run, and sc in one (R291, R292). The windows are counted in sc, and the
  window boundary last handled. -/
  free : Nat := 0
  inSc : Bool := false
  boundary : Nat := 0
  /-- Whole periods the current sc of region Y0Q0 still takes beyond its own (R291, R293). -/
  extra : Nat := 0
  change : Option OpChange := none
  /-- When the clock meshes settle (R296), and when the rails of a slower operating point are lowered (R295). -/
  settleAt : Option Nat := none
  lowerAt : Option Nat := none
  /-- Yards whose PLL is relocking: attempts made, the instant the present one ends (R297). -/
  relock : List (Nat × Nat × Nat) := []
  /-- Samples of power in the averaging window, newest first (R304). -/
  samples : List Nat := []
  /-- Power stretching: since when, and the 64-sc group last handled (R305). -/
  powerSince : Option Nat := none
  powerGroup : Nat := 0
  /-- When the loop last stepped down, and since when the measurement has been low with no thermal request (R305, R306). -/
  lastDown : Option Nat := none
  lastThermal : Option Nat := none
  lowSince : Option Nat := none
  /-- Last junction temperature of each region (Table 18-6). -/
  temps : List (Nat × Int) := []
  /-- Samples of 100 µs not yet counted in CLK_THROTTLE_MS (R308). -/
  throttled : Nat := 0
  /-- The millisecond of TREF in which the voltage loop last acted (R303). -/
  loopTick : Nat := 0
  deriving DecidableEq, Repr

/-! ## The fabric (14) -/

/-- A frame that has been sent and not acknowledged (R268, R271): sequence number, lane, the bytes of packets in it (packet, first
byte in the packet, number), the 512 bytes of its data, the replays so far. -/
structure FabFrame where
  seq   : Nat
  lane  : Nat
  parts : List (Nat × Nat × Nat)
  bytes : List Nat
  /-- How often it has been replayed, and how many of these replays failed in their turn (R272, R273). -/
  replays : Nat := 0
  fails   : Nat := 0
  deriving DecidableEq, Repr

/-- A packet: the 32 bytes of its header and its payload (R274), with the lane it travels on. -/
structure FabPacket where
  lane    : Nat
  header  : List Nat
  payload : List Nat
  /-- A SEND of this device whose bytes it holds, until they have all been framed: engine, context (16 on: fixed-latency), chunk
  (R247). -/
  owner   : Option (Nat × Nat × Nat) := none
  /-- At a port: its number there, and how many of its bytes have been put into frames, and acknowledged. -/
  no      : Nat := 0
  framed  : Nat := 0
  acked   : Nat := 0
  deriving DecidableEq, Repr

/-- A fabric port (R267 to R273). -/
structure FabPort where
  /-- Sequence number of the next frame to send, and of the next frame expected. -/
  txSeq : Nat := 0
  rxSeq : Nat := 0
  replay : List FabFrame := []
  /-- Packets that the peer has not acknowledged whole, in the order of their frames. -/
  packets : List FabPacket := []
  /-- The lane whose frame was sent last, and the lanes whose credits the peer withholds (R275, R283). -/
  lane  : Nat := 3
  blocked : Nat := 0
  /-- When the line is free for the next frame, in 1/9 tc (R268). -/
  freeAt : Nat := 0
  /-- SCH_TC in 1/9 tc when the last TIME packet left, and when one came that is not yet used (R285); the lane asymmetry measured at
  training, in ps: flight in less flight out. -/
  timeOut : Option Nat := none
  timeIn  : Option Nat := none
  asym  : Int := 0
  /-- Taken down by a FABRIC_TRAIN, so that it stays DOWN (R269). -/
  down  : Bool := false
  /-- The training in progress must find all 8 lanes (Table 14-2). -/
  wide  : Bool := false
  deriving DecidableEq, Repr

/-- A fabric node (R283): the units received from each device input, by INPUT index, the next unit to form, and the next
result to deliver. -/
structure FabNode where
  inputs  : List (Nat × List (List Nat)) := []
  up      : Nat := 0
  down    : Nat := 0
  deriving DecidableEq, Repr

/-- The fabric side of the part. -/
structure Fabric where
  ports : List (Nat × FabPort) := []
  /-- Packets for this device that have arrived and not landed, oldest first (R276, R277). -/
  arrived : List FabPacket := []
  nodes : List (Nat × FabNode) := []
  /-- A frame over its retry budget, here or on the way of a packet that landed, since the last hold (R272). -/
  retried : Bool := false
  /-- TSRC of the last SET_MEMBERSHIP (R279), and whether the first correction of the present upstream is done (R286). -/
  source : Option Nat := none
  corrected : Bool := false
  /-- Consecutive exchanges within the bound (R286), and when the last exchange was (`Sched.ref`). -/
  good : Nat := 0
  lastExch : Nat := 0
  /-- A correction of SCH_TC that is still being slewed in, in units of 1/9 tc, and the rate: 1, 0 or −1 of them in 10,000 (R286). -/
  slew : Int := 0
  rate : Int := 0
  /-- Number of the next packet that goes to a port. -/
  next : Nat := 0
  /-- Phases that fabric nodes still need of the adder of a router, keyed 48 · yard + router (R261, R283). -/
  adders : List (Nat × Nat) := []
  /-- A local reset in progress, and when the RESET that started the last one came (`Sched.ref`; R281). -/
  resetting : Bool := false
  lastReset : Option Nat := none
  deriving DecidableEq, Repr

/-! ## The on-die network (13) -/

/-- What a flit of the dynamic classes, or of a variable-latency descriptor, brings to its endpoint (Table 13-3): a request for its
controller, bytes of a request, the notice that a write has completed, elements of a GRAD descriptor with an on-chip source, an
update command of S engine 4y + k, a packet in transit with its fabric port. Requests are named by engine and number. -/
inductive Cargo where
  | request (x id : Nat)
  | data (x id off : Nat) (bs : List Nat)
  | notice (x id : Nat)
  | grad (x no unit : Nat) (bs : List Nat)
  | command (unit s : Nat) (c : UpdCmd)
  | transit (port : Nat) (k : Option FabPacket)
  deriving DecidableEq, Repr

/-- A flit on a reserved path (R252, R256): the phase in which it leaves its last router or enters an adder, that router and output,
the adder node, its header with the source endpoint (yard and code), its bytes (none: not enabled), the bridge lanes it crosses with
their phases, and what a VC2 flit brings. -/
structure NetFlit where
  phase  : Nat
  yard   : Nat
  router : Nat
  port   : Nat
  node   : Nat
  dest   : NetDest
  src    : Nat × Nat
  data   : List (Option Nat)
  lanes  : List (Nat × Nat)
  cargo  : Option Cargo := none
  deriving DecidableEq, Repr

/-- A flit of the dynamic classes, or a VC2 flit that waits for the timetable (R252 to R254): a number of its own, its virtual channel, its source and
destination endpoints (yard and code), when its endpoint sent it, when it came to the head of its source queue, the router input it
stands in (none: its source queue) and the phase it entered there, since when it heads its queue at its output, whether a table has
sent it round a failed router, whether it has reached its endpoint, what it brings. Times are phases. -/
structure DynFlit where
  no    : Nat
  vc    : Nat
  src   : Nat × Nat
  dst   : Nat × Nat
  sent  : Nat
  headed : Option Nat := none
  place : Option (Nat × Nat × Nat) := none
  entered : Nat := 0
  heads : Option Nat := none
  detour : Bool := false
  arrived : Bool := false
  cargo : Cargo
  deriving DecidableEq, Repr

/-- The network's own time and ports: phases passed (two in each arithmetic period, R252), flits sent, the phase in which each endpoint last sent
a VC0 flit (keyed 128 · yard + endpoint, R255), the local inputs that a flit has been handed to in the present sc (router of the
part, port, half). -/
structure NetPorts where
  phase  : Nat := 0
  sent   : Nat := 0
  paced  : List (Nat × Nat) := []
  handed : List (Nat × Nat × Nat) := []
  deriving DecidableEq, Repr

/-- An adder node (R261): queues of (phase entered, bytes), and the outputs made so far (R262). -/
structure AddNode where
  left  : List (Nat × List (Option Nat)) := []
  right : List (Nat × List (Option Nat)) := []
  outs  : Nat := 0
  /-- One more than the phase in which an output was last due. -/
  served : Nat := 0
  deriving DecidableEq, Repr

/-! ## Snapshots (18) -/

/-- What the state block of a snapshot holds (R360). -/
structure SnapBlock where
  sc    : Nat := 0
  base  : Nat := 0
  slips : Nat := 0
  anchor : Nat := 0
  streams : List (Nat × StreamPos) := []
  mEng : List (Nat × MState) := []
  vEng : List (Nat × VState) := []
  sEng : List (Nat × SState) := []
  gen  : Nat := 0
  /-- Group tables, status words, trackers and drain-queue slots: register offsets and words. -/
  regs : List (Nat × Word) := []
  tags : List (Nat × TagState) := []
  nodes : List (Nat × AddNode) := []
  fabNodes : List (Nat × FabNode) := []
  landed : List (Nat × Nat) := []
  deriving DecidableEq, Repr, Inhabited


/-! ## Outputs, and the whole state -/

/-- What the part has sent to the outside, newest first: the model's own record (log entry 8). -/
inductive Out where
  /-- A reply or event written to entry `index` of reply ring `ring`, with PHASE (R315). -/
  | reply (p : Port) (ring index : Nat) (phase : Bool) (r : Reply)
  /-- An MSI-X message (R334). -/
  | msix (p : Port) (vector : Nat)
  /-- A reply or event on the sideband (R336). -/
  | mctp (r : Reply)
  /-- An in-band interrupt on the sideband (R336). -/
  | ibi
  /-- The answer to an MCTP control message or to ENTDAA (R336). -/
  | control (bytes : List Nat)
  /-- Completion of a configuration request: Request Retry Status, or a value (R310). -/
  | config (p : Port) (retry : Bool) (value : Nat)
  /-- An SPDM response (R345): code, parameters and body. -/
  | spdm (p : Port) (bytes : List Nat)
  /-- Bytes written to host memory at a bus address (R243). -/
  | hostWrite (p : Port) (addr : Nat) (bytes : List Nat)
  /-- A PCIe read request or write request of a host window (R243): bus address, length, translated; relaxed ordering, no snoop,
  the width of its tag. -/
  | pcie (p : Port) (write : Bool) (addr len : Nat) (translated ro ns : Bool) (tagBits : Nat)
  /-- A Translation Request, a Page Request, or the completion of an invalidation, for a page (R244). -/
  | ats (p : Port) (kind page : Nat)
  /-- A frame sent on a fabric port (R268, R271): port, lane, sequence number, the last frame received, lanes whose credits are withheld,
  512 bytes of data. -/
  | frame (port lane seq ack withheld : Nat) (bytes : List Nat)
  /-- An acknowledgement sent on a fabric port that has no frame to send (R271; log entry 83). -/
  | acknowledge (port ack withheld : Nat)
  /-- A request for a replay from a sequence number, sent on a fabric port (R271). -/
  | replayRequest (port seq : Nat)
  /-- A target written to a rail's regulator, in mV (R295, R303). -/
  | rail (region mv : Nat)
  deriving DecidableEq, Repr

/-- The part without the queue and the part record. -/
structure Dev where
  /-- Stored control-space registers: offset and word, where it differs from the reset value (R7). -/
  regs : List (Nat × Word) := []
  /-- Bytes of device memory: address and byte, where it differs from 0 (R6, R197, R217, R218). -/
  mem  : List Host.Cell := []
  run  : PartState := .ready
  tripped : Bool := false
  claim : Option Source := none
  long : Option LongCmd := none
  /-- HALT commands whose replies are owed (R329). -/
  halts : List Owed := []
  snapReq : Option SnapReq := none
  /-- Commands cut off by a management restart: their replies are owed (R337). -/
  cut : List Owed := []
  lastFault : Nat := 0
  /-- REC_BOUNDS_ADDR holds the first access of the run (R353). -/
  boundsSeen : Bool := false
  /-- The working copy of the part record that boot applied (R341). -/
  cfg : PartRecord := {}
  portA : HostPort := {}
  portB : HostPort := {}
  sideband : Sideband := {}
  flash : Flash := {}
  boot : BootState := {}
  recorder : Recorder := {}
  /-- Instant of the last limit trigger of each monitor channel, 1/9 tc (R370). -/
  monLast : List (Nat × Nat) := []
  sched : Sched := {}
  /-- Physical positions of the logical scalar engines that differ from their own index, keyed 4y + k (R14). -/
  posSMap : List (Nat × Nat) := []
  /-- The transfer engines, keyed 8y + k. -/
  xfer : List (Nat × Xfer) := []
  atsA : Ats := {}
  atsB : Ats := {}
  /-- Injection buffers in use, in the order their descriptors took effect (R110). -/
  inject : List InjBuf := []
  /-- Bytes landed per (device, tag), keyed 2^32 · device + tag, since the last RECV of the tag completed (R248). -/
  landed : List (Nat × Nat) := []
  /-- Bytes held in each update unit's gradient port, oldest first (R170). -/
  gradPort : List (Nat × List Nat) := []
  /-- Matrix engines keyed 16y + k, vector engines 8y + k, scalar engines 4y + k. -/
  mEng : List (Nat × MState) := []
  vEng : List (Nat × VState) := []
  sEng : List (Nat × SState) := []
  /-- Flits on the lunge rings (R99). -/
  ring : List RingFlit := []
  /-- Scheduled flits in the network, and adder nodes keyed 2^16 y + 256 router + NODE (R256, R261). -/
  net  : List NetFlit := []
  nodes : List (Nat × AddNode) := []
  /-- Flits of the dynamic classes and waiting VC2 flits, oldest first (R253, R256). -/
  dyn  : List DynFlit := []
  netPorts : NetPorts := {}
  /-- Number of the next request of a transfer engine. -/
  nextReq : Nat := 0
  /-- Tag state of the regions the image defines, by region (R134). -/
  tags : List (Nat × TagState) := []
  /-- The update units by index u = 5y + k (R159). -/
  upd : List (Nat × UpdUnit) := []
  /-- Update commands that have reached their unit's endpoint and wait to enter it: unit, issuing S engine 4y + k, command (R168). -/
  updSent : List (Nat × Nat × UpdCmd) := []
  scrub : Scrubbers := {}
  banks : Banks := {}
  /-- Errors that stand in memory (R211, R225), by the key under which their word's first byte is held. -/
  errs : List (Nat × ErrWord) := []
  /-- Where the first uncorrectable error of the run has been recorded (R214, R230): yards, then 4 + the controller. -/
  ueSeen : List Nat := []
  /-- Memory controllers whose interface is retraining (R227). -/
  retraining : List Nat := []
  /-- DDR5 channels whose module has x8 devices (R225). -/
  wide8 : List Nat := []
  clocks : Clocks := {}
  fab : Fabric := {}
  /-- The state blocks this device has written, by their number (R360; log entry 20). -/
  snaps : List (Nat × SnapBlock) := []
  /-- Counter behind the free values (log entry 9), and the number of STARTs (log entry 4). -/
  nonce : Nat := 0
  gen  : Nat := 0
  out  : List Out := []
  deriving DecidableEq, Repr

/-- The part with the commands that wait for it, first in first out, and its part record, which nothing writes (R339). -/
structure State where
  pending : List Instr
  part : PartRecord
  dev  : Dev
  deriving DecidableEq, Repr

/-- Right after reset: entry to READY at the end of boot, with the default part record (log entries 1 and 2). -/
def State.reset : State := { pending := [], part := {}, dev := {} }

end Sys2Proof.Machine
end

