-- ==== Sys2Proof/Machine/Tab.lean ====
section
/-! DEFINITION. Sparse tables: finite maps held as lists of (key, value) pairs with rising keys. Registers, memory
and the per-engine state are held in them, so that equal states are equal data. -/
namespace Sys2Proof.Machine

/-- The value listed for a key, if there is one. -/
def Tab.find {α : Type} : List (Nat × α) → Nat → Option α
  | [], _ => none
  | (k', v) :: t, k => if k = k' then some v else Tab.find t k

/-- The value of a key, with what an unlisted key reads as. -/
def Tab.get {α : Type} (d : α) (t : List (Nat × α)) (k : Nat) : α := (Tab.find t k).getD d

/-- List a value for a key, keeping the keys rising. -/
def Tab.insert {α : Type} : List (Nat × α) → Nat → α → List (Nat × α)
  | [], k, v => [(k, v)]
  | (k', v') :: t, k, v =>
    if k < k' then (k, v) :: (k', v') :: t
    else if k = k' then (k, v) :: t
    else (k', v') :: Tab.insert t k v

/-- Remove a key. -/
def Tab.erase {α : Type} : List (Nat × α) → Nat → List (Nat × α)
  | [], _ => []
  | (k', v') :: t, k => if k = k' then Tab.erase t k else (k', v') :: Tab.erase t k

/-- Write a value, keeping the canonical form: a value equal to what an unlisted key reads as is not listed. -/
def Tab.put {α : Type} [DecidableEq α] (d : α) (t : List (Nat × α)) (k : Nat) (v : α) : List (Nat × α) :=
  if v = d then Tab.erase t k else Tab.insert t k v

/-- Remove every key from `lo` up to, but not including, `hi`: a range that returns to its default. -/
def Tab.clear {α : Type} (t : List (Nat × α)) (lo hi : Nat) : List (Nat × α) :=
  t.filter fun c => c.1 < lo || hi ≤ c.1

/-- The keys rise strictly. -/
def Tab.rising {α : Type} : List (Nat × α) → Bool
  | [] => true
  | (k, _) :: t =>
    (match t with
      | [] => true
      | (k', _) :: _ => decide (k < k')) && Tab.rising t

end Sys2Proof.Machine
end

