-- ==== Sys2Proof/Machine/Regs.lean ====
section
/-! DEFINITION. Reading and writing stored control-space registers and their fields (R7 to R9), and the other small
operations on the state that every family uses. -/
namespace Sys2Proof.Machine

/-- Native latencies of Table 2-5, stepping A0 (R40); the reserved class 0xF reads 0. -/
def nativeA0 : List Nat := [20, 36, 6, 6, 10, 18, 12, 5, 2, 4, 20, 2, 4, 400, 720, 0]
/-- Native latencies of Table 2-5, stepping B0 (R40). -/
def nativeB0 : List Nat := [16, 36, 5, 5, 8, 14, 12, 4, 2, 3, 20, 2, 3, 400, 720, 0]

/-- Four 16-bit values, the first in the low bits. -/
def pack16 (l : List Nat) : Nat := l.foldr (fun v acc => v % 65536 + 65536 * acc) 0
/-- Eight 8-bit values, the first in the low bits. -/
def pack8 (l : List Nat) : Nat := l.foldr (fun v acc => v % 256 + 256 * acc) 0

/-- Reset values that are not one number for every register of an array: those the part record gives (log entry 2) and
those the spec marks `x` (log entry 3). The rest is the static reset column. -/
def regDefault (r : RegName) (idx : List Nat) : Word :=
  let i0 := nth 0 idx 0
  let i1 := nth 0 idx 1
  let i2 := nth 0 idx 2
  let n : Nat :=
    if r = .rSCH_NATIVE then pack16 ((nativeA0.drop (4 * i0)).take 4)
    else if r = .rNOC_ROUTE then routeWord (healthyPort false i1) i2
    else if r = .rRING_MAP then pack8 ((List.range 8).map fun k => 8 * i1 + k + 1)
    else if r = .rRING_REST then 17 * 256
    else if r = .rRING_STAT then 0x20001 * 2 ^ 32
    else if r = .rENG_VPOS then i1
    else if r = .rCLK_PD_CTL then 0xFFFFFFFFFF
    else if r = .rCLK_PD_STAT then 0xFFFFFFFFFF
    else if r = .rCLK_AVS then 750
    else if r = .rCLK_PLL then putBits (putBits 0 63 63 1) 15 8 12
    else if r = .rMEM_STAT then
      if i0 % 5 < 3 then putBits (putBits 0 51 48 8) 40 32 48 else putBits (putBits 0 51 48 3) 40 32 64
    else if r = .rMEM_CAL then putBits 0 31 24 32
    else if r = .rFAB_PORT_STAT then putBits 0 fFAB_PORT_STAT_STATE.hi fFAB_PORT_STAT_STATE.lo 1
    else if r = .rNOC_BRIDGE then 0x3F3F
    else if r = .rHST_SEQ then 1
    else if r = .rSEC_BOOT then putBits 0 63 56 9
    else if r = .rSEC_ID then putBits 0 63 63 1
    else if r = .rSEC_SETTINGS then putBits (putBits 0 63 48 1) 47 32 1
    else r.resetWord
  BitVec.ofNat 64 n

/-- A stored register. -/
def Dev.word (d : Dev) (r : RegName) (idx : List Nat) : Word :=
  Tab.get (regDefault r idx) d.regs (regOffset r idx)

/-- The device with a stored register written, access rules aside. -/
def Dev.setWord (d : Dev) (r : RegName) (idx : List Nat) (w : Word) : Dev :=
  { d with regs := Tab.put (regDefault r idx) d.regs (regOffset r idx) w }

/-- A field of a stored register. -/
def Dev.getF (d : Dev) (f : Field) (idx : List Nat) : Nat := bits (d.word f.reg idx).toNat f.hi f.lo

/-- A one-bit field as a Boolean. -/
def Dev.flag (d : Dev) (f : Field) (idx : List Nat) : Bool := d.getF f idx == 1

/-- The device with one field of a stored register written. -/
def Dev.setF (d : Dev) (f : Field) (idx : List Nat) (v : Nat) : Dev :=
  d.setWord f.reg idx (BitVec.ofNat 64 (putBits (d.word f.reg idx).toNat f.hi f.lo v))

/-- Set a field to the larger of its value and a new one, sticking at the field's largest value (R372). -/
def Dev.maxF (d : Dev) (f : Field) (idx : List Nat) (v : Nat) : Dev :=
  if v > d.getF f idx then d.setF f idx (min v (2 ^ (f.hi + 1 - f.lo) - 1)) else d

/-- Add to a field that sticks at its largest value (R372). -/
def Dev.satAddF (d : Dev) (f : Field) (idx : List Nat) (n : Nat) : Dev :=
  d.setF f idx (min (d.getF f idx + n) (2 ^ (f.hi + 1 - f.lo) - 1))

/-- Append to the record of outputs. -/
def Dev.emit (d : Dev) (o : Out) : Dev := { d with out := o :: d.out }

/-- A fresh undefined value of `w` bits, and the device with the counter advanced (R3; log entry 9). -/
def Dev.fresh (d : Dev) (w : Nat) : Nat × Dev :=
  (Config.freeWord d.nonce % 2 ^ w, { d with nonce := d.nonce + 1 })

def Dev.port (d : Dev) : Port → HostPort
  | .ha => d.portA
  | .hb => d.portB

def Dev.setPort (d : Dev) (p : Port) (x : HostPort) : Dev :=
  match p with
  | .ha => { d with portA := x }
  | .hb => { d with portB := x }

def HostPort.ring (x : HostPort) (k : Nat) : RingPair :=
  if k = 0 then x.ring0 else if k = 1 then x.ring1 else if k = 2 then x.ring2 else x.ring3

def HostPort.setRing (x : HostPort) (k : Nat) (r : RingPair) : HostPort :=
  if k = 0 then { x with ring0 := r } else if k = 1 then { x with ring1 := r }
  else if k = 2 then { x with ring2 := r } else { x with ring3 := r }

def PartRecord.yard (p : PartRecord) (y : Nat) : YardRecord :=
  if y = 0 then p.yard0 else if y = 1 then p.yard1 else if y = 2 then p.yard2 else p.yard3

/-- HST_STATE.STATE (Table 16-10). -/
def PartState.code : PartState → Nat
  | .off => 0 | .boot => 1 | .ready => 2 | .loaded => 3 | .running => 4 | .held => 5 | .halted => 6 | .faulted => 7

/-- HST_STATE.CLAIM (Table 16-14). -/
def claimCode : Option Source → Nat
  | none => 0
  | some (.host .ha) => 1
  | some (.host .hb) => 2
  | some .sideband => 3

/-- Status codes of Table 16-7 (R321). -/
def Status.code : Status → Nat
  | .ok => 0x00 | .busy => 0x01 | .notClaimed => 0x02 | .badOpcode => 0x03 | .badParam => 0x04 | .imageHeader => 0x05
  | .imageSignature => 0x06 | .latencyProfile => 0x07 | .allocation => 0x08 | .membershipEpoch => 0x09
  | .bufferTooSmall => 0x0A | .fenced => 0x0B | .transferFault => 0x0C | .versionFault => 0x0D
  | .scheduleViolation => 0x0E | .sdcDetected => 0x0F | .timeout => 0x10 | .indexOrder => 0x11
  | .stagingEmpty => 0x12 | .settingsReset => 0x13

/-- The run states in which a schedule stands: RUNNING, HELD or HALTED (R352). -/
def PartState.inRun : PartState → Bool
  | .running | .held | .halted => true
  | .off | .boot | .ready | .loaded | .faulted => false

/-- Time since SCH_TC was 0, in units of 1/9 tc: two VCO cycles each (R288). -/
def Dev.time (d : Dev) : Nat := d.sched.tc * 9 + d.sched.sub

/-- SCH_SC: the count of the run before until the run's first cycle (R24). -/
def Sched.shown (s : Sched) : Nat := s.before.getD s.sc

/-- Set the whole schedule part of the state. -/
def Dev.withSched (d : Dev) (f : Sched → Sched) : Dev := { d with sched := f d.sched }
def Dev.withHold (d : Dev) (f : Hold → Hold) : Dev := { d with sched := { d.sched with hold := f d.sched.hold } }

end Sys2Proof.Machine
end

