-- ==== Sys2Proof/Machine/Ops.lean ====
section
/-! DEFINITION. The operations every family shares: performance counters and recorder triggers (R362, R364, R372), replies
and events (R315, R317, R333, R334), run-state changes (R332), the arbiter's checks (R319, R320), and taking a stopping
fault (R38, R352, R353). -/
namespace Sys2Proof.Machine

/-! ## Counters and triggers -/

/-- The full address of a register in the device physical address space (R10). -/
def regAddress (r : RegName) (idx : List Nat) : Nat := 0x7F0000000000 + regOffset r idx

/-- Add to a 48-bit performance counter; whether it wrapped (R372). -/
def Dev.bump (d : Dev) (r : RegName) (idx : List Nat) (n : Nat) : Dev × Bool :=
  let v := (d.word r idx).toNat % 2 ^ 48 + n
  (d.setWord r idx (BitVec.ofNat 64 (v % 2 ^ 48)), decide (v ≥ 2 ^ 48))

/-- Note the first performance counter to wrap (R373). -/
def Dev.noteWrap (d : Dev) (r : RegName) (idx : List Nat) : Dev :=
  if (d.word .rREC_OVF_ADDR []).toNat = 0 then
    d.setWord .rREC_OVF_ADDR [] (BitVec.ofNat 64 (regAddress r idx)) else d

/-- A trigger that is lost (R364): counted, and marked in the next record. -/
def Dev.loseTrigger (d : Dev) : Dev :=
  let (d1, w) := d.bump .rREC_LOST_CNT [] 1
  let d2 := { d1 with recorder := { d1.recorder with lost := true } }
  if w then d2.noteWrap .rREC_LOST_CNT [] else d2

/-- REC_STAT.FULL: the recorder has stopped under STOP_FULL (R364). -/
def Dev.recFull (d : Dev) : Bool := d.flag fREC_CTL_STOP_FULL [] && decide (d.recorder.since ≥ 8192)

/-- A trigger source fires, its unit's own event bit already checked (R362, R364). -/
def Dev.fire (d : Dev) (source unit : Nat) : Dev :=
  if !bit (d.getF fREC_TRIG_EN_EN []) source then d
  else if d.flag fREC_CTL_PAUSE [] || d.recFull || d.recorder.queue.length ≥ 64 then d.loseTrigger
  else { d with recorder :=
    { d.recorder with queue := d.recorder.queue ++ [⟨source, unit, d.sched.tc⟩] } }

/-- Count in a performance counter; a wrap fires trigger source 27 (R372). -/
def Dev.count (d : Dev) (r : RegName) (idx : List Nat) (n : Nat) : Dev :=
  let (d1, w) := d.bump r idx n
  if w then (d1.noteWrap r idx).fire 27 0 else d1

/-! ## Registers as software sees them -/

/-- HST_STATE (Table 16-14). -/
def Dev.hstState (d : Dev) : Nat :=
  d.run.code + claimCode d.claim * 2 ^ 34 + b2n d.long.isSome * 2 ^ 38 + b2n d.boot.fwReady * 2 ^ 39
    + d.lastFault * 2 ^ 48

/-- SCH_HOLD_STAT (Table 2-9). -/
def Dev.holdStat (d : Dev) : Nat :=
  let h := d.sched.hold
  h.cause + h.causeSet * 2 ^ 32 + h.flags * 2 ^ 48 + b2n h.releasing.isSome * 2 ^ 61
    + b2n (h.freeze.isSome && !h.held) * 2 ^ 62 + b2n h.held * 2 ^ 63

/-- Scoreboard entries a yard occupies: from issue to due cycle inclusive (R30). -/
def Sched.occupied (s : Sched) (y : Nat) : Nat := (s.board.filter fun e => e.yard = y && s.sc ≤ e.due).length

/-! ## Replies and events -/

/-- STATUS of the reply fields, FLAGS and the rest, as the 32 bytes of Table 16-5. -/
def Reply.bytes (r : Reply) (phase : Bool) : List Nat :=
  leBytes 2 r.tag ++ [r.opc, r.status.code, b2n phase + 2 * b2n r.event + 4 * b2n r.lost, r.sq, r.kind, 0]
    ++ leBytes 8 r.seq ++ leBytes 16 r.result

/-- Signal an MSI-X vector, or leave it pending while it is masked (R334). -/
def HostPort.signal (x : HostPort) (v : Nat) : HostPort × Bool :=
  if bit x.msixMask v || x.cfg.fnMask then ({ x with msixPend := putBits x.msixPend v v 1 }, false) else (x, true)

/-- Write a reply or an event into the next entry of a reply ring (R315), then signal its vector (R334). -/
def Dev.writeEntry (d : Dev) (p : Port) (k : Nat) (irq : Bool) (m : Reply) : Dev :=
  let x := d.port p
  let r := x.ring k
  let size := 2 ^ r.rqSize
  let wrapped := r.rqTail + 1 = size
  let r' := { r with
    rqTail := if wrapped then 0 else r.rqTail + 1
    phase := if wrapped then !r.phase else r.phase
    used := r.used + 1
    reserved := if m.event then r.reserved else r.reserved - 1 }
  let d1 := (d.setPort p (x.setRing k r')).emit (.reply p k r.rqTail r.phase m)
  if irq then
    let v := if m.event then 4 else k
    let (x', sent) := (d1.port p).signal v
    let d2 := d1.setPort p x'
    if sent then d2.emit (.msix p v) else d2
  else d1

/-- Whether a port may write to its rings (R335). -/
def HostPort.canWrite (x : HostPort) : Bool := x.link && !x.perst && x.cfg.bme

/-- Whether reply ring `k` has an entry for an event (unreserved) or for a reply. -/
def RingPair.room (r : RingPair) (event : Bool) : Bool :=
  if event then r.used + r.reserved < 2 ^ r.rqSize else r.used < 2 ^ r.rqSize

/-- A reply for a host goes to its reply ring, waits while the port cannot write, and is discarded when the ring is not
enabled (R313, R315, R335). -/
def Dev.replyHost (d : Dev) (p : Port) (k : Nat) (irq : Bool) (m : Reply) : Dev :=
  let x := d.port p
  let r := x.ring k
  if !r.rqEn then d
  else if x.canWrite && r.room false && r.waiting.isEmpty then d.writeEntry p k irq m
  else d.setPort p (x.setRing k { r with waiting := r.waiting ++ [(irq, m)] })

/-- The variable block that the settings writes so far leave, those still on their way to the flash with them (R348). -/
def Flash.newest (f : Flash) : Settings := (f.ops.reverse.findSome? (·.settings)).getD f.active

/-- Complete a command: count it and write its reply (R315, R317), which is discarded where the command came from before a reset of
its port (R335). -/
def Dev.complete (d : Dev) (o : Owed) (st : Status) (result : Nat) : Dev :=
  let d1 := d.count .rHST_CMDS [] 1
  let m (sq : Nat) : Reply := ⟨o.hdr.tag.toNat, o.opc, st, false, false, sq, 0, o.seq, result % 2 ^ 128⟩
  match o.hdr.src with
  | .host p =>
    let x := d1.port p
    if x.gone.contains o.seq then d1.setPort p { x with gone := x.gone.filter (· ≠ o.seq) }
    else d1.replyHost p o.hdr.ring.val o.hdr.irq (m o.hdr.ring.val)
  | .sideband =>
    { d1 with sideband := { d1.sideband with outstanding := d1.sideband.outstanding - 1 } }.emit (.mctp (m 0xFF))

/-- The next sequence number of the arbiter (R318). -/
def Dev.takeSeq (d : Dev) : Nat × Dev :=
  let n := ((d.word .rHST_SEQ []).toNat + 1) % 2 ^ 64
  (n, d.setWord .rHST_SEQ [] (BitVec.ofNat 64 n))

/-- An event for a host port (R333). -/
def Dev.eventHost (d : Dev) (p : Port) (m : Reply) : Dev :=
  let x := d.port p
  let r := x.ring0
  if !r.rqEn then d
  else if x.canWrite && r.room true && x.events.isEmpty then
    (d.setPort p { x with lostMark := false }).writeEntry p 0 true { m with lost := x.lostMark }
  else if x.events.length < 256 then d.setPort p { x with events := x.events ++ [m] }
  else (d.setPort p { x with evLost := x.evLost + 1, lostMark := true }).count .rHST_EVENTS_LOST [] 1

/-- An event for the sideband (R336): announced by in-band interrupt, up to 16 waiting. -/
def Dev.eventSideband (d : Dev) (m : Reply) : Dev :=
  if d.sideband.host.isNone then d
  else if d.sideband.waiting.length < 16 then
    { d with sideband := { d.sideband with
        waiting := d.sideband.waiting ++ [{ m with lost := d.sideband.lostMark }], lostMark := false } }.emit .ibi
  else { d with sideband := { d.sideband with lostMark := true } }.count .rHST_EVENTS_LOST [] 1

/-- Who receives an event (Table 16-9). -/
inductive EventTo where
  | all
  | only (s : Source)
  deriving DecidableEq, Repr

/-- Raise an event: it takes a sequence number and goes to its destinations (R318, R333). -/
def Dev.event (d : Dev) (dest : EventTo) (kind : Nat) (st : Status) (result : Nat) : Dev :=
  let (n, d1) := d.takeSeq
  let m : Reply := ⟨0xFFFF, 0, st, true, false, 0xFF, kind, n, result % 2 ^ 128⟩
  match dest with
  | .all => ((d1.eventHost .ha m).eventHost .hb m).eventSideband m
  | .only (.host p) => d1.eventHost p m
  | .only .sideband => d1.eventSideband m

/-- Enter a run state. RUNNING and HELD alternate without an event; every other change raises a STATE event (R333) and
trigger source 0 (R362). -/
def Dev.enter (d : Dev) (s : PartState) : Dev :=
  if s = d.run then d
  else
    let old := d.run
    let d1 := { d with run := s }
    if (old = .running ∧ s = .held) ∨ (old = .held ∧ s = .running) then d1
    else (d1.event .all 0x01 .ok (s.code + old.code * 2 ^ 8 + d.sched.shown * 2 ^ 64)).fire 0 s.code

/-! ## The arbiter -/

/-- A row of Table 16-6. -/
structure CmdRow where
  opc : Nat
  claim : Bool
  accepts : PartState → Bool
  long : Bool
  /-- START, RESUME and SET_MEMBERSHIP: refused while a long command is in progress (R319). -/
  alone : Bool

/-- "All" of Table 16-6: every state from READY to FAULTED (R320). -/
def anyState : PartState → Bool
  | .off | .boot => false
  | .ready | .loaded | .running | .held | .halted | .faulted => true

/-- The checks 3 and 4 of R319 on a packet, whose opcode and reserved bytes the row itself fixes; then the command's own
work, which answers through the owed reply. While the management controller restarts, a packet is seen but completes only
with the restart (R337). In OFF nothing is seen; in BOOT the host ports fetch nothing (R320), and the ROM answers the sideband from
stage 1 on (R341). -/
def Dev.arbitrate (d : Dev) (c : CmdRow) (h : Hdr) (work : Owed → Dev → Dev) : Dev :=
  if d.run = .off then d
  else if d.run = .boot ∧ (h.src ≠ .sideband ∨ d.boot.stage = 0) then d
  else
    let (n, d1) := d.takeSeq
    let o : Owed := ⟨h, c.opc, n⟩
    if d1.boot.restarting then { d1 with cut := d1.cut ++ [o] }
    else if c.claim && d1.claim ≠ some h.src then d1.complete o .notClaimed 0
    else if !c.accepts d1.run then d1.complete o .busy 0
    else if (c.long || c.alone) && d1.long.isSome then d1.complete o .busy 0
    else work o d1

/-! ## Stopping faults -/

/-- What a stopping fault records besides its code (Table 18-9). -/
structure FaultInfo where
  code   : Nat
  detail : Nat := 0
  yard   : Nat := 0
  kind   : Nat := 3
  pos    : Nat := 0
  unit   : Nat := 0
  /-- The detecting unit, which stops (R352): a number of Board.lean. -/
  stops  : Option Nat := none

/-- REC_FAULT for a fault, VALID set (Table 18-9). -/
def FaultInfo.word (f : FaultInfo) (more : Bool) : Nat :=
  f.unit % 65536 + f.pos % 32 * 2 ^ 31 + f.kind % 4 * 2 ^ 36 + f.yard % 4 * 2 ^ 38 + f.detail % 256 * 2 ^ 40
    + f.code % 256 * 2 ^ 48 + b2n more * 2 ^ 62 + 2 ^ 63

/-- STATUS of a stopping fault's RUN_FAULT event (Table 18-1). -/
def faultStatus (code : Nat) : Status :=
  if code = 1 then .scheduleViolation
  else if code = 2 ∨ code = 3 ∨ code = 4 ∨ code = 5 then .sdcDetected
  else if code = 6 ∨ code = 7 then .versionFault
  else if code = 8 then .indexOrder else .ok

/-- A stopping fault is detected while a run is RUNNING, HELD or HALTED (R352). In the sc of the first one the lowest code is
recorded and MORE is set; a later one only sets MORE. The detecting unit stops. A freeze with no release is broadcast, 24 sc on
(R33, R38); a freeze
already in effect is never released (R39). A hold's freeze that is still pending keeps its cycle, which R33 and R38 leave open
(DESIGN CHOICE; log entry 74). -/
def Dev.stopFault (d : Dev) (f : FaultInfo) : Dev :=
  if !d.run.inRun then d
  else
    let cur := d.getF fREC_FAULT_CODE []
    let d := (d.fire 1 f.code).withSched fun s => { s with stopped := f.stops.toList ++ s.stopped }
    match d.sched.stop with
    | none =>
      let d1 := (d.setWord .rREC_FAULT [] (BitVec.ofNat 64 (f.word false))).setWord .rREC_FAULT_SC []
        (BitVec.ofNat 64 d.sched.sc)
      let d2 := { d1 with
        sched := { d1.sched with
          stop := some ⟨d1.sched.sc, false⟩
          hold := { d1.sched.hold with
            releasing := none
            freeze := match d1.sched.hold.freeze with
              | some c => some c
              | none => some (d1.sched.sc + 24) } } }
      if d2.flash.active.dumpOnFault then
        { d2 with recorder := { d2.recorder with dumpAt := some (d2.sched.ref + 9 * 8000000) } } else d2
    | some st =>
      if st.sc = d.sched.sc ∧ !st.raised ∧ f.code < cur then d.setWord .rREC_FAULT [] (BitVec.ofNat 64 (f.word true))
      else d.setF fREC_FAULT_MORE [] 1

/-- A schedule violation (R38): recorded in SCH_VIOL_STAT and SCH_VIOL_SC, and a stopping fault. -/
def Dev.violation (d : Dev) (cause yard kind pos : Nat) : Dev :=
  if !d.run.inRun then d
  else
    let d1 :=
      if d.flag fSCH_VIOL_STAT_VALID [] then d.setF fSCH_VIOL_STAT_MORE [] 1
      else (d.setWord .rSCH_VIOL_STAT [] (BitVec.ofNat 64
          (2 ^ 63 + cause * 2 ^ 48 + yard % 4 * 2 ^ 46 + kind % 4 * 2 ^ 44 + pos % 32 * 2 ^ 39))).setWord
        .rSCH_VIOL_SC [] (BitVec.ofNat 64 d.sched.sc)
    d1.stopFault { code := 1, detail := cause, yard := yard, kind := kind, pos := pos }

/-- A memory-bounds access by an accessor of R353, at a device physical address. -/
def Dev.boundsFault (d : Dev) (f : FaultInfo) (addr : Nat) : Dev :=
  if d.run.inRun then
    let d1 := if d.boundsSeen then d
      else { d with boundsSeen := true }.setWord .rREC_BOUNDS_ADDR [] (BitVec.ofNat 64 addr)
    d1.stopFault { f with code := 9 }
  else
    let d1 := d.count .rREC_BOUNDS_CNT [] 1
    let d2 := if d1.boundsSeen then d1 else d1.setWord .rREC_BOUNDS_ADDR [] (BitVec.ofNat 64 addr)
    d2.fire 29 f.detail

/-! ## The shape of every meaning -/

/-- What every command answers: the next state, in which only the device has changed. The queue is as `exec` was given it,
and the part record is never written (R339). -/
def State.upd (s : State) (f : PartRecord → Dev → Dev) : Host.Outcome State Fault Refusal :=
  .next { s with dev := f s.part s.dev }

end Sys2Proof.Machine
end

