-- ==== Sys2Proof/Machine/Memory.lean ====
section
/-! DEFINITION. The device physical address space (R10, R197, R217, R218, R241), the assignment of logical engines to
physical positions as addresses see it (R14, R102, R199), populated bytes and stalls (R198, R209, R215, R229), reading and
writing bytes, fenced accesses (R200) and ECC outcomes (R212, R226, R354). -/
namespace Sys2Proof.Machine

/-! ## Where an address lies -/

/-- What a device physical address names. On-chip places carry the yard, the space code of Table 10-1, the logical engine
and the byte offset within the instance. -/
inductive Place where
  | onchip (y space e off : Nat)
  | hbm (stack off : Nat)
  | ddr (chan off : Nat)
  | window (w off : Nat)
  | control (off : Nat)
  | nowhere
  deriving DecidableEq, Repr

/-- The on-chip place at an offset of a yard's window (Table 10-1). -/
def locateYard (y o : Nat) : Place :=
  if o < 0x10000000 then .onchip y 0 0 o
  else if o < 0x18000000 then .onchip y 1 ((o - 0x10000000) / 0x800000) ((o - 0x10000000) % 0x800000)
  else if 0x20000000 ≤ o ∧ o < 0x24000000 then
    .onchip y 2 ((o - 0x20000000) / 0x400000) ((o - 0x20000000) % 0x400000)
  else if 0x30000000 ≤ o ∧ o < 0x34000000 then
    .onchip y 3 ((o - 0x30000000) / 0x800000) ((o - 0x30000000) % 0x800000)
  else if 0x38000000 ≤ o ∧ o < 0x38800000 then
    .onchip y 4 ((o - 0x38000000) / 0x100000) ((o - 0x38000000) % 0x100000)
  else if 0x40000000 ≤ o ∧ o < 0x40400000 then
    .onchip y 5 ((o - 0x40000000) / 0x100000) ((o - 0x40000000) % 0x100000)
  else .nowhere

/-- The place a device physical address names. -/
def locate (a : Nat) : Place :=
  if a < 0x9000000000 then .hbm (a / 2 ^ 30 % 12) (a / 2 ^ 30 / 12 * 2 ^ 30 + a % 2 ^ 30)
  else if 0x100000000000 ≤ a ∧ a < 0x100000000000 + 8 * 0x4000000000 then
    .ddr ((a - 0x100000000000) / 0x4000000000) ((a - 0x100000000000) % 0x4000000000)
  else if 0x200000000000 ≤ a ∧ a < 0x200400000000 then
    locateYard ((a - 0x200000000000) / 0x100000000) ((a - 0x200000000000) % 0x100000000)
  else if 0x400000000000 ≤ a ∧ a < 0x500000000000 then
    .window ((a - 0x400000000000) / 0x400000000) ((a - 0x400000000000) % 0x400000000)
  else if 0x7F0000000000 ≤ a ∧ a < 0x7F000D000000 then .control (a - 0x7F0000000000)
  else .nowhere

/-- Window offset of an instance of a space (Table 10-1). -/
def spaceBase (space e : Nat) : Nat :=
  if space = 0 then 0
  else if space = 1 then 0x10000000 + e * 0x800000
  else if space = 2 then 0x20000000 + e * 0x400000
  else if space = 3 then 0x30000000 + e * 0x800000
  else if space = 4 then 0x38000000 + e * 0x100000
  else 0x40000000 + e * 0x100000

/-- Device physical address of a byte of an on-chip instance. -/
def onchipAddr (y space e off : Nat) : Nat := 0x200000000000 + y * 0x100000000 + spaceBase space e + off

/-- Plain populated bytes of one instance (Table 10-1). -/
def spaceSize (space : Nat) : Nat :=
  if space = 0 then 0x6000000 else if space = 1 then 0x400000 else if space = 2 then 0x200000
  else if space = 3 then 0x400000 else 0x100000

/-- Bytes of an instance that have an address, the swizzled view of tile memory included. -/
def spaceSpan (space : Nat) : Nat := if space = 1 then 0x800000 else spaceSize space

/-- Instances of a space in a yard (Table 10-1). -/
def spaceCount (space : Nat) : Nat :=
  if space = 0 then 1 else if space = 1 ∨ space = 2 then 16 else if space = 3 ∨ space = 4 then 8 else 4

/-- BUFFER alignment of a space (Table 10-1). -/
def spaceAlign (space : Nat) : Nat :=
  if space = 0 ∨ space = 3 then 128 else if space = 4 then 0x40000 else 64

/-! ## Assignment of logical engines -/

/-- Physical position of a logical matrix engine: RING_MAP (R102, R113). -/
def Dev.posM (d : Dev) (y e : Nat) : Nat := bits (d.word .rRING_MAP [y, e / 8]).toNat (8 * (e % 8) + 4) (8 * (e % 8))
/-- Physical position of a logical vector engine: ENG_VPOS (R14, R158). -/
def Dev.posV (d : Dev) (y e : Nat) : Nat := d.getF fENG_VPOS_POS [y, e]
/-- Physical position of a logical scalar engine (R14). -/
def Dev.posS (d : Dev) (y e : Nat) : Nat := Tab.get e d.posSMap (4 * y + e)

/-- Physical position that holds an instance of a space. -/
def Dev.position (d : Dev) (y space e : Nat) : Nat :=
  if space = 0 then 0
  else if space = 1 ∨ space = 2 then d.posM y e
  else if space = 3 ∨ space = 4 then d.posV y e
  else d.posS y e

/-- Whether a position of a kind (0 M, 1 V, 2 S, 3 transfer engine) is fenced by command: REC_FENCE (R358). -/
def Dev.cmdFenced (d : Dev) (y kind pos : Nat) : Bool :=
  let lo := if kind = 0 then 0 else if kind = 1 then 18 else if kind = 2 then 27 else 32
  bit (d.word .rREC_FENCE [y]).toNat (lo + pos)

/-- Whether the part record marks a position failed. -/
def Dev.recFailed (d : Dev) (y kind pos : Nat) : Bool :=
  let r := d.cfg.yard y
  bit (if kind = 0 then r.failedM else if kind = 1 then r.failedV else if kind = 2 then r.failedS else r.failedX) pos

/-- Quadrant of a physical position (Table 1-4): kinds 0 M, 1 V, 2 S, 3 transfer engine. -/
def posQuadrant (kind pos : Nat) : Nat :=
  if kind = 0 then (if pos < 5 then 0 else if pos < 9 then 1 else if pos < 14 then 2 else 3)
  else if kind = 1 then (if pos < 3 then 0 else if pos < 5 then 1 else if pos < 7 then 2 else 3)
  else if kind = 2 then (if pos < 2 then 0 else pos - 1)
  else pos / 2

/-- Whether a power domain is on: CLK_PD_STAT (R300). -/
def Dev.domainOn (d : Dev) (pd : Nat) : Bool := bit (d.word .rCLK_PD_STAT []).toNat pd

/-- Serviceable: neither fenced nor marked failed (R14), in a quadrant that is on (Table 15-5). -/
def Dev.serviceable (d : Dev) (y kind pos : Nat) : Bool :=
  !d.cmdFenced y kind pos && !d.recFailed y kind pos && d.domainOn (8 * y + posQuadrant kind pos)

/-- Whether an on-chip instance belongs to a fenced position (R200). -/
def Dev.fencedPlace (d : Dev) (y space e : Nat) : Bool :=
  space ≠ 0 && d.cmdFenced y (if space ≤ 2 then 0 else if space ≤ 4 then 1 else 2) (d.position y space e)

/-! ## Populated bytes and stalls -/

/-- First stall bit of an instance (Table 10-5). -/
def stallBase (space e : Nat) : Nat :=
  if space = 0 then 0 else if space = 1 then 24576 + 1024 * e else if space = 2 then 40960 + 512 * e
  else if space = 3 then 49152 + 1024 * e else if space = 4 then 57344 + 256 * e else 59392 + 256 * e

/-- A plain offset: the swizzled view reaches the byte with bit 22 clear (R207). -/
def plainOff (space off : Nat) : Nat := if space = 1 then off % 0x400000 else off

/-- Whether the stall of a byte is allocated (R209). -/
def Dev.stallAllocated (d : Dev) (y space e off : Nat) : Bool :=
  let b := stallBase space e + plainOff space off / 4096
  bit (d.word .rOCM_STALL [y, b / 64]).toNat (b % 64)

/-- Whether every stall of a range of an instance is allocated. -/
def Dev.rangeAllocated (d : Dev) (y space e off len : Nat) : Bool :=
  let first := off / 4096
  len = 0 || (List.range ((off + len - 1) / 4096 + 1 - first)).all fun k => d.stallAllocated y space e ((first + k) * 4096)

/-- The controller number of R159 behind a stack or a channel. -/
def stackCtl (s : Nat) : Nat := 5 * (s / 3) + s % 3
def chanCtl (c : Nat) : Nat := 5 * (c / 2) + 3 + c % 2

/-- Whether a stack is installed: trained at boot (R215). -/
def Dev.stackIn (d : Dev) (s : Nat) : Bool := !d.flag fMEM_STAT_FAILED [stackCtl s]
/-- Installed bytes of a DDR5 channel (R216, R218). -/
def Dev.chanIn (d : Dev) (c : Nat) : Nat :=
  if d.flag fMEM_STAT_FAILED [chanCtl c] then 0 else d.getF fMEM_STAT_CAP_GIB [chanCtl c] * 2 ^ 30

/-- Whether a range of a channel's window, and of the windows after it where it runs on, is installed (R218). -/
def Dev.ddrIn (d : Dev) : Nat → Nat → Nat → Nat → Bool
  | 0, _, _, _ => false
  | n + 1, c, off, len =>
    c < 8 && (off + len ≤ d.chanIn c || (d.chanIn c = 2 ^ 38 && d.ddrIn n (c + 1) 0 (off + len - 2 ^ 38)))

/-- Controllers behind a range of a memory tier. -/
def tierUnits (a len : Nat) : List Nat :=
  match locate a with
  | .hbm _ _ => (List.range ((a + len - 1) / 2 ^ 30 + 1 - a / 2 ^ 30)).map fun k => stackCtl ((a / 2 ^ 30 + k) % 12)
  | .ddr c off => (List.range (min 8 ((off + len - 1) / 2 ^ 38 + 1))).map fun k => chanCtl (c + k)
  | .onchip _ _ _ _ | .window _ _ | .control _ | .nowhere => []

/-- Whether `len` bytes from an address lie wholly in installed memory of one instance, in stacks, or in channels (R198, R215,
R218), whether or not their tier is in self-refresh. A host window or control space is not memory of the part. -/
def Dev.installed (d : Dev) (a len : Nat) : Bool :=
  match locate a with
  | .onchip _ space _ off => off + len ≤ spaceSpan space
  | .hbm _ _ =>
    a + len ≤ 0x9000000000 &&
      (List.range ((a + len - 1) / 2 ^ 30 + 1 - a / 2 ^ 30)).all fun k => d.stackIn ((a / 2 ^ 30 + k) % 12)
  | .ddr c off => d.ddrIn 8 c off len
  | .window _ _ | .control _ | .nowhere => false

/-- Installed, and not in self-refresh (R229). -/
def Dev.populated (d : Dev) (a len : Nat) : Bool :=
  d.installed a len && (tierUnits a len).all fun u => !d.flag fMEM_STAT_SELF_REFRESH [u]

/-! ## Bytes -/

/-- The key under which a byte is held: its device physical address, on-chip memories by physical position (R199) and
without the swizzled view (R207). -/
def Dev.memKey (d : Dev) (a : Nat) : Nat :=
  match locate a with
  | .onchip y space e off => onchipAddr y space (d.position y space e) (plainOff space off)
  | _ => a

/-- One byte of memory; a byte nothing has written reads 0 (R199 on chip; log entry 5 for the tiers). -/
def Dev.peek (d : Dev) (a : Nat) : Nat := (Tab.get 0#8 d.mem (d.memKey a)).toNat

/-- Write one byte of memory, keeping the canonical form. -/
def Dev.poke (d : Dev) (a v : Nat) : Dev := { d with mem := Tab.put 0#8 d.mem (d.memKey a) (BitVec.ofNat 8 v) }

/-- The canonical form of memory: addresses rise strictly, and no byte is listed that reads as an unlisted one does. -/
def Memory.wf (m : List Host.Cell) : Bool := Tab.rising m && m.all fun c => c.2 != 0#8

/-- Bytes of memory from an address on. -/
def Dev.peeks (d : Dev) (a n : Nat) : List Nat := (List.range n).map fun k => d.peek (a + k)

/-- Write bytes from an address on. -/
def Dev.pokes (d : Dev) (a : Nat) : List Nat → Dev
  | [] => d
  | b :: bs => (d.poke a b).pokes (a + 1) bs

/-- A number stored least significant byte first (R6). -/
def Dev.peekN (d : Dev) (a n : Nat) : Nat := leNat (d.peeks a n)

/-- Memory from one key up to another becomes 0, with valid check bits. -/
def Dev.zeroKeys (d : Dev) (lo hi : Nat) : Dev := { d with mem := Tab.clear d.mem lo hi, errs := Tab.clear d.errs lo hi }

/-- Every byte of an instance at a physical position becomes 0 (R199, R357). -/
def Dev.zeroInstance (d : Dev) (y space pos : Nat) : Dev :=
  d.zeroKeys (onchipAddr y space pos 0) (onchipAddr y space pos 0 + spaceSize space)

/-- Every byte of on-chip memory of a yard, spares included, becomes 0 (R199). -/
def Dev.zeroYard (d : Dev) (y : Nat) : Dev :=
  d.zeroKeys (0x200000000000 + y * 0x100000000) (0x200000000000 + y * 0x100000000 + 0x100000000)

/-! ## Error correction -/

/-- Bank of a plain offset (Table 10-2). -/
def bankOf (space off : Nat) : Nat :=
  if space = 0 then Nat.xor (bits off 12 7) (bits off 18 13)
  else if space = 1 ∨ space = 2 then bits off 10 6
  else if space = 3 then bits off 11 7
  else if space = 5 then bits off 9 6 else 0

/-- First occurrence of an ECC error, or MORE (Tables 10-9, 11-9). -/
def Dev.recordEcc (d : Dev) (r : RegName) (idx : List Nat) (w : Nat) : Dev :=
  if bit (d.word r idx).toNat 63 then d.setWord r idx (BitVec.ofNat 64 (putBits (d.word r idx).toNat 62 62 1))
  else d.setWord r idx (BitVec.ofNat 64 (2 ^ 63 + w))

/-- The sc of the first uncorrectable error of a run, in the register of its place (Tables 10-7, 11-5). -/
def Dev.firstUe (d : Dev) (place : Nat) (r : RegName) (idx : List Nat) : Dev :=
  if d.run.inRun && !d.ueSeen.contains place then
    { d with ueSeen := place :: d.ueSeen }.setWord r idx (BitVec.ofNat 64 d.sched.shown)
  else d

/-- Outcome of an error found on an on-chip read, on a merge or by the scrubber (Table 10-6). -/
def Dev.onchipEcc (d : Dev) (uncorr scrub : Bool) (y space pos off : Nat) : Dev :=
  let w := off / 8 * 8 % 2 ^ 32 + bankOf space off * 2 ^ 47 + pos % 32 * 2 ^ 53 + space * 2 ^ 58 + b2n scrub * 2 ^ 61
  if !uncorr then
    let d1 := (d.count .rOCM_CE_CNT [y] 1).recordEcc .rOCM_ECC_CE [y] w
    if d1.flag fOCM_CTL_CE_EVENT [y] then d1.fire 8 y else d1
  else
    let d1 := ((d.count .rOCM_UE_CNT [y] 1).recordEcc .rOCM_ECC_UE [y] w).firstUe y .rOCM_ECC_UE_SC [y]
    let d2 := if d1.flag fOCM_CTL_UE_EVENT [y] then d1.fire 9 y else d1
    let allocated := space = 0 && d2.stallAllocated y 0 0 off ||
      (List.range (spaceCount space)).any fun e => d2.position y space e = pos && d2.stallAllocated y space e off
    let d3 := if scrub && !allocated then
        d2.zeroKeys (onchipAddr y space pos (off / 8 * 8)) (onchipAddr y space pos (off / 8 * 8) + 8) else d2
    if d3.run.inRun && (!scrub || allocated) then
      d3.stopFault { code := 3, detail := space, yard := y, pos := pos,
                     kind := if space = 0 then 3 else if space ≤ 2 then 0 else if space ≤ 4 then 1 else 2 }
    else d3

/-- Pseudo-channel of an HBM4 address (R217). -/
def pseudoChannel (a : Nat) : Nat := Nat.xor (bits a 13 8) (bits a 19 14)

/-- Outcome of an error found on a memory-tier read, on a merge or by the patrol scrubber (Table 11-4). `lane` is the LANE field
of a DDR5 codeword; of an HBM4 codeword it is the pseudo-channel. -/
def Dev.tierEcc (d : Dev) (uncorr scrub : Bool) (u lane addr : Nat) : Dev :=
  let lane := if u % 5 < 3 then pseudoChannel addr else lane % 64
  let w := addr / 64 * 64 % 2 ^ 48 + lane * 2 ^ 54 + b2n scrub * 2 ^ 61
  if !uncorr then
    let d1 := (d.count .rMEM_CE_CNT [u] 1).recordEcc .rMEM_ECC_CE [u] w
    if d1.flag fMEM_CTL_CE_EVENT [u] then d1.fire 10 u else d1
  else
    let d1 := ((d.count .rMEM_UE_CNT [u] 1).recordEcc .rMEM_ECC_UE [u] w).firstUe (4 + u) .rMEM_ECC_UE_SC [u]
    let d2 := if d1.flag fMEM_CTL_UE_EVENT [u] then d1.fire 11 u else d1
    if d2.run.inRun && !scrub then
      d2.stopFault { code := 4, detail := if u % 5 < 3 then 0 else 1, yard := u / 5, unit := u }
    else d2

/-- An error in a protected logic structure of Table 18-2 (R354); for a router's buffers `unit` is the router (R355). -/
def Dev.logicEcc (d : Dev) (ecc : Ecc) (structureNo yard kind pos : Nat) (unit : Nat := 0) : Dev :=
  match ecc with
  | .none => d
  | .corrected => (d.count .rREC_LOGIC_CE_CNT [] 1).fire 30 structureNo
  | .uncorrectable =>
    (d.count .rREC_LOGIC_UE_CNT [] 1).stopFault
      { code := 5, detail := structureNo, yard := yard, kind := kind, pos := pos, unit := unit }

/-- The controller of R159 that holds an address of a tier. -/
def tierController (a : Nat) : Option Nat :=
  match locate a with
  | .hbm st _ => some (stackCtl st)
  | .ddr c _ => some (chanCtl c)
  | .onchip _ _ _ _ | .window _ _ | .control _ | .nowhere => none

/-- The protected word of a key: its first key and its bytes, 8 on chip (R211) and 64 in a tier (R225). -/
def wordOf (key : Nat) : Nat × Nat := if (tierController key).isSome then (key / 64 * 64, 64) else (key / 8 * 8, 8)

/-- Yard, space, physical position and plain offset behind the key of an on-chip byte (R199). -/
def physPlace (key : Nat) : Nat × Nat × Nat × Nat :=
  let o := key - 0x200000000000
  let y := o / 0x100000000
  let r := o % 0x100000000
  if r < 0x10000000 then (y, 0, 0, r)
  else if r < 0x20000000 then (y, 1, (r - 0x10000000) / 0x800000, (r - 0x10000000) % 0x800000)
  else if r < 0x30000000 then (y, 2, (r - 0x20000000) / 0x400000, (r - 0x20000000) % 0x400000)
  else if r < 0x38000000 then (y, 3, (r - 0x30000000) / 0x800000, (r - 0x30000000) % 0x800000)
  else if r < 0x40000000 then (y, 4, (r - 0x38000000) / 0x100000, (r - 0x38000000) % 0x100000)
  else (y, 5, (r - 0x40000000) / 0x100000, (r - 0x40000000) % 0x100000)

/-- A word that holds an error is read (Tables 10-6, 11-4): a corrected word on chip waits for the scrubber's rewriting (R213), one
of a tier is rewritten by its controller; what cannot be corrected stays. -/
def Dev.meetWord (d : Dev) (scrub : Bool) (key : Nat) : Dev :=
  match Tab.find d.errs key with
  | none => d
  | some w =>
    match tierController key with
    | some u =>
      (if w.uncorr then d else { d with errs := Tab.erase d.errs key }).tierEcc w.uncorr scrub u w.lane key
    | none =>
      let p := physPlace key
      (if w.uncorr then d else { d with errs := Tab.insert d.errs key { w with seen := true } }).onchipEcc w.uncorr scrub p.1
        p.2.1 p.2.2.1 p.2.2.2

/-- Words that hold an error among those of some bytes, each once. -/
def Dev.errWords (d : Dev) (addrs : List Nat) : List Nat :=
  if d.errs.isEmpty then []
  else (addrs.map fun a => (wordOf (d.memKey a)).1).eraseDups.filter fun k => (Tab.find d.errs k).isSome

/-- Every word behind some bytes is read (R212, R226). -/
def Dev.meet (d : Dev) (addrs : List Nat) : Dev := (d.errWords addrs).foldl (fun d k => d.meetWord false k) d

/-- Bytes hold no value the spec gives: free values. -/
def Dev.spoil (d : Dev) (key n : Nat) : Dev :=
  { d with
    mem := (List.range n).foldl (fun m i => Tab.put 0#8 m (key + i) (BitVec.ofNat 8 (Config.freeWord (d.nonce + i) % 256))) d.mem
    nonce := d.nonce + n }

/-- An error comes up in the word of a byte: it can be corrected unless another stands there already (R211, R225). Bytes that cannot
be corrected hold no value the spec gives. -/
def Dev.strikeKey (d : Dev) (ecc : Ecc) (lane at_ : Nat) : Dev :=
  let (key, n) := wordOf at_
  let list (uncorr : Bool) (d : Dev) : Dev := { d with errs := Tab.insert d.errs key { uncorr := uncorr, lane := lane } }
  match ecc with
  | .none => d
  | .corrected => if (Tab.find d.errs key).isSome then list true (d.spoil key n) else list false d
  | .uncorrectable => list true (d.spoil key n)
def Dev.strike (d : Dev) (ecc : Ecc) (a : Nat) : Dev := d.strikeKey ecc 0 (d.memKey a)

/-- What the codes of a controller make of an error (R225): within what they correct, within what they are said to detect, or beyond:
then corrected wrongly, detected or not seen, as a free value decides. Its second part says whether the bytes are spoilt. -/
def Dev.tierVerdict (d : Dev) (u : Nat) (e : TierErr) : Ecc × Bool :=
  let open_ : Ecc × Bool :=
    if Config.freeWord d.nonce % 3 = 0 then (.none, true) else if Config.freeWord d.nonce % 3 = 1 then (.corrected, true)
    else (.uncorrectable, true)
  let parts := e.parts.toNat
  let bits := e.bits.toNat
  if u % 5 < 3 then
    if parts = 0 then (.none, false) else if parts = 1 then (.corrected, false) else if parts = 2 then (.uncorrectable, true) else open_
  else if d.wide8.contains (2 * (u / 5) + (u % 5 - 3)) then
    if bits = 0 then (.none, false) else if bits = 1 then (.corrected, false) else if bits = 2 then (.uncorrectable, true) else open_
  else if parts = 0 then (.none, false) else if parts = 1 then (.corrected, false)
  else if bits = 2 then (.uncorrectable, true) else open_

/-- An error comes up in a codeword of a controller (R225, R226): the on-die code of HBM4 counts what it corrects. -/
def Dev.tierStrike (d : Dev) (u : Nat) (e : TierErr) (a : Nat) : Dev :=
  let d1 := if e.onDie && u % 5 < 3 then d.count .rMEM_ODECC_CNT [u] 1 else d
  let (ecc, spoilt) := d1.tierVerdict u e
  let d2 := { d1 with nonce := d1.nonce + 1 }
  if spoilt && ecc ≠ .uncorrectable then (d2.spoil (a / 64 * 64) 64).strikeKey ecc e.lane.toNat a else d2.strikeKey ecc e.lane.toNat a

/-- A write comes to a word that holds an error: a word written whole is free of them, any other is merged, which reads it
(R211, R212, R223, R226). The bytes a merge of a correctable error leaves have valid check bits; on chip nothing is recorded of
it (log entry 75). `full` are the bytes of which every bit is written. -/
def Dev.overwriteWord (full : List Nat) (d : Dev) (k : Nat) : Dev :=
  let whole := decide ((full.filter fun a => (wordOf (d.memKey a)).1 = k).eraseDups.length = (wordOf k).2)
  match Tab.find d.errs k with
  | none => d
  | some w =>
    if whole || (!w.uncorr && (tierController k).isNone) then { d with errs := Tab.erase d.errs k } else d.meetWord false k

/-- Bytes are written over words that hold errors. -/
def Dev.overwrite (d : Dev) (addrs full : List Nat) : Dev := (d.errWords addrs).foldl (Dev.overwriteWord full) d

/-! ## Results in flight -/

/-- The bytes a result will write. -/
def Target.addrs : Target → List Nat
  | .bytes a bs => (List.range bs.length).map fun i => a + i
  | .scatter l => l.map (·.1)
  | .accum a vals => (List.range (4 * vals.length)).map fun i => a + i
  | .held _ _ t => t.addrs
  | .slack _ _ _ t => t.addrs
  | .offer _ _ _ _ _ t => t.addrs
  | .vreg _ _ _ _ _ | .vmask _ _ _ _ | .vstat _ _ | .release _ _ | .sreg _ _ _ | .sregHigh _ _ _ | .areg _ _ _
  | .tracker _ _ _ | .track _ _ _ | .origin _ _ _ _ _ | .grad _ _ | .source _ _ _ | .hand _ _ _ _ _ _ _ => []

/-- Whether something in flight will still write a byte (R26). -/
def Dev.inFlightByte (d : Dev) (a : Nat) : Bool :=
  let k := d.memKey a
  d.sched.inFlight.any fun x => x.target.addrs.any fun b => d.memKey b == k

/-- Bytes as a read finds them: errors are met, and a byte in flight reads as a free value (R26). -/
def Dev.readAt (d : Dev) (addrs : List Nat) : List Nat × Dev :=
  let d1 := d.meet addrs
  if d1.sched.inFlight.isEmpty then (addrs.map d1.peek, d1)
  else
    ((List.range addrs.length).map fun i =>
      let a := nth 0 addrs i
      if d1.inFlightByte a then Config.freeWord (d1.nonce + i) % 256 else d1.peek a,
     { d1 with nonce := d1.nonce + addrs.length })
def addrRange (a n : Nat) : List Nat := (List.range n).map fun i => a + i
def Dev.reads (d : Dev) (a n : Nat) : List Nat × Dev := d.readAt (addrRange a n)

/-- Bytes are written from an address on. -/
def Dev.writes (d : Dev) (a : Nat) (bs : List Nat) : Dev := (d.overwrite (addrRange a bs.length) (addrRange a bs.length)).pokes a bs

/-! ## Checked accesses of the run -/

/-- Verdict on an access. -/
inductive Access3 where
  | good
  | fenced (y : Nat)
  | bounds
  deriving DecidableEq, Repr

/-- The run-time check of an access (R198, R200, R209): no fault is raised at a fenced position; during a run every stall touched
must be allocated. -/
def Dev.checkAccess (d : Dev) (a len : Nat) : Access3 :=
  match locate a with
  | .onchip y space e off =>
    if d.fencedPlace y space e then .fenced y
    else if !d.populated a len then .bounds
    else if d.run.inRun && !d.rangeAllocated y space e off len then .bounds
    else .good
  | _ => if d.populated a len then .good else .bounds

/-- Read bytes for a unit: zeros on a memory-bounds fault or from a fenced position (R200, R353). -/
def Dev.load (d : Dev) (f : FaultInfo) (a n : Nat) : List Nat × Dev :=
  match d.checkAccess a n with
  | .good => d.reads a n
  | .fenced y => (List.replicate n 0, d.count .rOCM_FENCED_DROP [y] 1)
  | .bounds => (List.replicate n 0, d.boundsFault f a)

/-- Write bytes for a unit: discarded on a memory-bounds fault or to a fenced position (R200, R353). -/
def Dev.store (d : Dev) (f : FaultInfo) (a : Nat) (bs : List Nat) : Dev :=
  match d.checkAccess a bs.length with
  | .good => d.writes a bs
  | .fenced y => d.count .rOCM_FENCED_DROP [y] 1
  | .bounds => d.boundsFault f a

/-! ## What commands read: images, firmware, snapshots -/

/-- The host window of a port, its flags and length (R241, R249). -/
def Dev.windowValid (d : Dev) (w : Nat) : Bool := d.flag fXFR_WIN_CFG_VALID [w]
def Dev.windowLen (d : Dev) (w : Nat) : Nat := d.getF fXFR_WIN_CFG_PAGES [w] * 4096
def windowPort (w : Nat) : Port := if w < 512 then .ha else .hb
def windowBase (w : Nat) : Nat := 0x400000000000 + w * 0x400000000

/-- Where the bytes of a command's source lie. -/
inductive SrcSpace where
  | window (w off : Nat)
  | tier
  | bad
  deriving DecidableEq, Repr

/-- The space rule of R326: a valid host window of the sender's port with READ (or WRITE), HBM4, or DDR5, the whole of it in
that one space; `hbm` says whether HBM4 is allowed (SNAPSHOT_AT and RESTORE allow only DDR5 and windows, R359, R361). -/
def Dev.srcSpace (d : Dev) (src : Source) (a len : Nat) (write hbm : Bool) : SrcSpace :=
  match locate a with
  | .window w off =>
    let perm := if write then d.flag fXFR_WIN_CFG_WRITE [w] else d.flag fXFR_WIN_CFG_READ [w]
    if src = .host (windowPort w) && d.windowValid w && perm && off + len ≤ d.windowLen w then .window w off else .bad
  | .hbm _ _ => if hbm && d.populated a len then .tier else .bad
  | .ddr _ _ => if d.populated a len then .tier else .bad
  | .onchip _ _ _ _ | .control _ | .nowhere => .bad

/-- Read a command's source: the bytes of memory, whose errors are met outside the checks of a run (R226), or what the host
returns; none where the read fails. -/
def Dev.readSource (d : Dev) (src : Source) (a len : Nat) (h : HostRead) : Option (List Nat) × Dev :=
  match d.srcSpace src a len false true with
  | .window w _ =>
    if h.ok && (d.port (windowPort w)).canWrite then
      (some ((h.bytes.map BitVec.toNat ++ List.replicate (len - h.bytes.length) 0).take len), d)
    else (none, d)
  | .tier => let r := d.reads a len; (some r.1, r.2)
  | .bad => (none, d)

/-- Write bytes to a command's destination: device memory, or host memory through a window (R359, R367, R371). -/
def Dev.writeDest (d : Dev) (a : Nat) (bs : List Nat) : Dev :=
  match locate a with
  | .window w off => d.emit (.hostWrite (windowPort w) ((d.word .rXFR_WIN_BASE [w]).toNat + off) bs)
  | _ => d.writes a bs

end Sys2Proof.Machine
end

