-- ==== Sys2Proof/Machine/Banks.lean ====
section
/-! DEFINITION. The banks of the on-chip memories (R201 to R206): what an access presents to them, which row each serves in an sc
(R87, R202 to R204), and their scrubbers (R213). -/
namespace Sys2Proof.Machine

/-! ## Rows -/

/-- Row width of a space (Table 10-2). -/
def rowWidth (space : Nat) : Nat := if space = 0 ∨ space = 3 then 128 else 64

/-- Banks of a space (Table 10-2). -/
def spaceBanks (space : Nat) : Nat :=
  if space = 0 then 64 else if space ≤ 3 then 32 else if space = 4 then 0 else 16

/-- Rows within a bank (Table 10-2). -/
def bankRows (space : Nat) : Nat := spaceSize space / (rowWidth space * max 1 (spaceBanks space))

/-- Row within its bank of an offset (Table 10-2). -/
def bankRowOf (space off : Nat) : Nat := off / (rowWidth space * max 1 (spaceBanks space))

/-- Key of a bank over the part. -/
def bankKey (y space pos bank : Nat) : Nat := ((y * 8 + space) * 32 + pos) * 64 + bank
def BankRow.key (r : BankRow) : Nat := bankKey r.yard r.space r.pos r.bank

/-- Whether two rows want the same turn of a bank: a tile-memory bank serves one access an sc, any other one read and one write
(Table 10-2). -/
def BankRow.rivals (a b : BankRow) : Bool := a.key = b.key && (a.space = 1 || a.write == b.write)

/-- Ports 0 to 3 of a tile memory and port 0 of any other memory but the yard store belong to engines (R203). -/
def BankRow.engines (r : BankRow) : Bool := r.space ≠ 0 && (if r.space = 1 then r.port < 4 else r.port = 0)

/-- What decides between two rows at a bank, lowest first (R87, R202 to R204): engines before the network port and P0 before P1
before P2; rows delayed from an earlier sc; the lower port; the older row, which in the yard store comes after the address. -/
def BankRow.rank (r : BankRow) : List Nat :=
  let older := 1000000 - r.waited
  (if r.engines then 0 else if r.space = 0 then r.prio else 1 + r.prio) :: b2n (decide (r.waited = 0)) :: r.port ::
    (if r.space = 0 then [r.off, older] else [older, r.off])

/-- The row is served in this sc: none that it competes with comes before it, and at equal rank the one presented first. -/
def servedNow (before after : List BankRow) (r : BankRow) : Bool :=
  (before.all fun o => !o.rivals r || decide (r.rank < o.rank)) && after.all fun o => !o.rivals r || !decide (o.rank < r.rank)

/-- Rows split into those served in this sc and those that wait. -/
def serveRows (before : List BankRow) : List BankRow → List BankRow × List BankRow
  | [] => ([], [])
  | r :: rs =>
    let (served, wait) := serveRows (before ++ [r]) rs
    if servedNow before rs r then (r :: served, wait) else (served, r :: wait)

/-! ## Accesses -/

/-- The rows that bytes of an instance lie in, each once, by their first offsets. -/
def rowsOf (space : Nat) (offs : List Nat) : List Nat :=
  (offs.map fun o => plainOff space o / rowWidth space * rowWidth space).eraseDups

/-- Present an access to the banks of an instance, a row for each first offset of `rows`, a row that takes its bank several times
listed as often: the number of the access. `keep` says that its conflict delay will be asked for. The drain queue has no banks
(Table 10-2). -/
def Dev.present (d : Dev) (y space e : Nat) (write : Bool) (port prio : Nat) (keep : Bool) (rows : List Nat) : Nat × Dev :=
  let b := d.banks
  let new := if space = 4 then [] else rows.map fun o =>
    { acc := b.next, yard := y, space := space, pos := d.position y space e, eng := e, bank := bankOf space o, write := write,
      port := port, prio := prio, off := o : BankRow }
  (b.next, { d with banks := { b with
    rows := b.rows ++ new, next := b.next + 1, keep := if keep then b.next :: b.keep else b.keep
    done := if keep && new.isEmpty then (b.next, 0) :: b.done else b.done } })

/-- The sc an access has waited so far, or its conflict delay once it is complete; whether it is complete. -/
def Dev.delayOf (d : Dev) (acc : Nat) : Nat × Bool :=
  let mine := d.banks.rows.filter fun r => r.acc = acc
  ((mine.map (·.waited)).foldl max (Tab.get 0 d.banks.done acc), mine.isEmpty)

/-- The conflict delay of an access is not asked for any more. -/
def Dev.forget (d : Dev) (acc : Nat) : Dev :=
  { d with banks := { d.banks with keep := d.banks.keep.erase acc, done := Tab.erase d.banks.done acc } }

/-- The waits of one sc are counted: conflict delay in the yard store (R204), network-port waits elsewhere (R203). -/
def Dev.countWait (d : Dev) (r : BankRow) : Dev :=
  if r.space = 0 then d.count .rOCM_YS_CONFLICT [r.yard] 1
  else if r.engines then d else d.count .rOCM_NET_WAIT [r.yard] 1

/-- A row of ports 0 to 3 that was the last of its access to be served: its waits are the conflict delay of the access (R202), which
the engine of the tile memory counts (R87). -/
def Dev.countConflict (d : Dev) (wait : List BankRow) (r : BankRow) : Dev :=
  if r.space = 1 && r.engines && r.waited > 0 && wait.all (fun o => o.acc ≠ r.acc) then
    d.count .rENG_MCONFLICT [r.yard, r.eng] r.waited
  else d

/-- The banks serve the rows of one sc. While the engines are frozen theirs wait, with their banks (R32). -/
def Dev.serveBanks (d : Dev) (frozen : Bool) : Dev :=
  if d.banks.rows.isEmpty then d
  else
    let (served, wait) := serveRows [] d.banks.rows
    let still := if frozen then served.filter BankRow.engines else []
    let go := if frozen then served.filter fun r => !r.engines else served
    let left := still ++ wait.map fun r => if frozen && r.engines then r else { r with waited := r.waited + 1 }
    let finished := (go.filter fun r => d.banks.keep.contains r.acc && left.all fun o => o.acc ≠ r.acc)
    let done := finished.foldl (fun t r => Tab.insert t r.acc (max r.waited (Tab.get 0 t r.acc))) d.banks.done
    let d1 := { d with banks := { d.banks with rows := left, done := done } }
    go.foldl (fun d r => d.countConflict left r) (wait.foldl (fun d r => d.countWait r) d1)

/-! ## Scrubbers -/

/-- Offset of the first byte of a row of a bank (Table 10-2). -/
def bankRowOff (space bank row : Nat) : Nat :=
  if space = 0 then row * 8192 + Nat.xor bank (row % 64) * 128
  else (row * spaceBanks space + bank) * rowWidth space

/-- The row a bank's scrubber reads next (R213). -/
def Dev.scrubRow (d : Dev) (y space key : Nat) : Nat :=
  (Tab.get 0 d.scrub.time y - Tab.get 0 d.scrub.missed key) % bankRows space

/-- A port presents a read to the bank in this sc, or has one waiting. -/
def Dev.bankRead (d : Dev) (key : Nat) : Bool := d.banks.rows.any fun r => r.key = key && !r.write

/-- A port presents a write to the bank, or any access to a tile-memory bank. -/
def Dev.bankWrite (d : Dev) (key : Nat) : Bool := d.banks.rows.any fun r => r.key = key && (r.write || r.space = 1)

/-- Key of the bank of an on-chip word. -/
def wordBank (key : Nat) : Nat := 
  let p := physPlace key
  bankKey p.1 p.2.1 p.2.2.1 (bankOf p.2.1 p.2.2.2)

/-- A bank's scrubber reads its next row: every error that stands in the row is met (R213, Table 10-6). -/
def Dev.scrubBank (d : Dev) (y space pos bank : Nat) : Dev :=
  let key := bankKey y space pos bank
  let row := d.scrubRow y space key
  let here (k : Nat) : Bool :=
    (tierController k).isNone && wordBank k = key && bankRowOf space (physPlace k).2.2.2 = row
  ((d.errs.map (·.1)).filter here).foldl (fun d k => d.meetWord true k)
    { d with scrub := { d.scrub with now := key :: d.scrub.now } }

/-- A corrected word is rewritten in the next sc in which no port presents a write to its bank (R213). -/
def Dev.rewriteWords (d : Dev) : Dev :=
  { d with errs := d.errs.filter fun e =>
      !(e.2.seen && (tierController e.1).isNone && d.flag fOCM_CTL_SCRUB_EN [(physPlace e.1).1] && !d.bankWrite (wordBank e.1)) }

/-- Passes over every bank of a yard: as many as the bank that has made fewest (R213). A yard-store bank has the most rows. -/
def Dev.scrubPasses (d : Dev) (y : Nat) : Nat :=
  let t := Tab.get 0 d.scrub.time y
  (d.scrub.missed.filter fun m => m.1 / 16384 = y).foldl
    (fun n m => min n ((t - m.2) / bankRows (m.1 / 2048 % 8) : Nat)) (t / bankRows 0)

/-- One arithmetic period of the scrubbers (R213): each bank in which no port presents a read reads its row, unless a SCRUB command
has had it do so; passes that are complete are counted. -/
def Dev.scrubYard (d : Dev) (y : Nat) : Dev :=
  if !d.flag fOCM_CTL_SCRUB_EN [y] then d
  else
    let banks := ((d.errs.map (·.1)).filter fun k => (tierController k).isNone && (physPlace k).1 = y).map wordBank
    let d1 := banks.eraseDups.foldl (fun d key =>
      if d.bankRead key || d.scrub.now.contains key then d
      else d.scrubBank y (key / 2048 % 8) (key / 64 % 32) (key % 64)) d
    let busy := ((d1.banks.rows.filter fun r => r.yard = y && !r.write).map (·.key)).eraseDups
    let d2 := { d1 with scrub := { d1.scrub with
      time := Tab.insert d1.scrub.time y (Tab.get 0 d1.scrub.time y + 1)
      missed := busy.foldl (fun t k => Tab.insert t k (Tab.get 0 t k + 1)) d1.scrub.missed } }
    let n : Nat := d2.scrubPasses y
    if n > Tab.get 0 d2.scrub.passes y then
      { d2 with scrub := { d2.scrub with passes := Tab.insert d2.scrub.passes y n } }.count .rOCM_SCRUB_PASSES [y] 1
    else d2

/-- The banks pass one arithmetic period: scrubbers, rewriting, then service. -/
def Dev.bankPeriod (d : Dev) (frozen : Bool) : Dev :=
  let d1 := [0, 1, 2, 3].foldl Dev.scrubYard d.rewriteWords
  ({ d1 with scrub := { d1.scrub with now := [] } }).serveBanks frozen

end Sys2Proof.Machine
end

