-- ==== Sys2Proof/Machine/Board.lean ====
section
/-! DEFINITION. The scoreboard and results in flight: taking an entry (R28 to R30), reporting completions (R31), and
queueing what a fixed-latency operation will write (R26). -/
namespace Sys2Proof.Machine

/-- Engine numbers: M 32y + e, V 32y + 16 + v, S 32y + 24 + s, X 128 + 8y + k. -/
def mNo (e : MEng) : Nat := 32 * e.yard.val + e.idx.val
def vNo (e : VEng) : Nat := 32 * e.yard.val + 16 + e.idx.val
def sNo (e : SEng) : Nat := 32 * e.yard.val + 24 + e.idx.val
def xNo (e : XEng) : Nat := 8 * e.yard.val + e.idx.val
/-- Number of transfer engine `xn` among the units that can stop. -/
def xUnit (xn : Nat) : Nat := 128 + xn

/-- A unit stops at once on a fault it detects (R38, R352). -/
def Dev.stopUnit (d : Dev) (n : Nat) : Dev := d.withSched fun s => { s with stopped := n :: s.stopped }

/-- A unit has stopped in this run. -/
def Dev.isStopped (d : Dev) (n : Nat) : Bool := d.sched.stopped.contains n

/-- Numbers of an injection stop, a router and an update unit among the units that can stop. -/
def injUnit (y : Nat) (ccw : Bool) (stop : Nat) : Nat := 160 + 6 * y + 3 * b2n ccw + stop
def routerUnit (y n : Nat) : Nat := 192 + 48 * y + n
def updUnit (u : Nat) : Nat := 384 + u

/-- A protected logic structure of a unit meets an error (R354); one that is uncorrectable stops the unit in a run (R352). -/
def Dev.unitEcc (d : Dev) (ecc : Ecc) (structureNo yard kind pos stop : Nat) (unit : Nat := 0) : Dev :=
  let d1 := d.logicEcc ecc structureNo yard kind pos unit
  if ecc = .uncorrectable && d.run.inRun then d1.stopUnit stop else d1

/-- The last cycle in which something of the run still elapses (R192). -/
def Dev.busyUntil (d : Dev) (sc : Nat) : Dev := d.withSched fun s => { s with lastBusy := max s.lastBusy sc }

/-- The declared latency of a class: native plus pad (R40, R41); for the bound classes the native value. -/
def Dev.latency (d : Dev) (cls : Nat) : Nat :=
  let native := nth 0 (if d.cfg.steppingB0 then nativeB0 else nativeA0) cls
  native + bits (d.word .rSCH_PAD [cls / 8]).toNat (8 * (cls % 8) + 7) (8 * (cls % 8))

/-- Take a scoreboard entry of a yard (R28, R30): the item's number, or SB_FULL when 1,024 are occupied, which stops the unit
whose issue would take the entry (R38). `kind` and `pos` say how SCH_VIOL_STAT records that unit, `unit` is its number. -/
def Dev.takeEntry (d : Dev) (y due cause : Nat) (anchor : Option Nat) (kind pos unit : Nat) : Option Nat × Dev :=
  if d.sched.occupied y ≥ 1024 then (none, (d.violation 4 y kind pos).stopUnit unit)
  else
    let n := d.sched.nextItem
    let d1 := d.withSched fun s =>
      { s with board := s.board ++ [⟨y, n, due, cause, false, anchor, false⟩], nextItem := n + 1,
               lastBusy := max s.lastBusy due }
    (some n, d1.setF fSCH_SB_USE_PEAK [y] (max (d1.getF fSCH_SB_USE_PEAK [y]) (d1.sched.occupied y)))

/-- An item completes; its completion is on its way to the scoreboard (R31). -/
def Dev.report (d : Dev) (item : Nat) : Dev := d.withSched fun s => { s with reports := s.reports ++ [item] }

/-- The scoreboard records a completion. -/
def Sched.record (s : Sched) (item : Nat) : Sched :=
  { s with reports := s.reports.filter (· ≠ item)
           board := s.board.map fun (e : SbEntry) => if e.item = item then { e with done := true } else e }

/-! ## Transfer engines -/

def Dev.x (d : Dev) (n : Nat) : Xfer := Tab.get {} d.xfer n
def Dev.setX (d : Dev) (n : Nat) (x : Xfer) : Dev := { d with xfer := Tab.put {} d.xfer n x }

/-- Replace a context of an engine. -/
def Xfer.update (x : Xfer) (no : Nat) (f : XCtx → XCtx) : Xfer :=
  { x with ctxs := x.ctxs.map fun c => if c.no = no then f c else c }
def Xfer.updateFixed (x : Xfer) (no : Nat) (f : XFix → XFix) : Xfer :=
  { x with fixed := x.fixed.map fun c => if c.no = no then f c else c }

/-- Bytes of one tile of a context are done. -/
def Dev.tileBytes (d : Dev) (xn no tile n : Nat) : Dev :=
  d.setX xn ((d.x xn).update no fun c =>
    { c with tiles := c.tiles.map fun (t : XTile) => if t.tile = tile then { t with done := t.done + n } else t })

/-! ## Results in flight -/

/-- Queue what an operation writes `lat` sc after now (R26, R142). -/
def Dev.deliver (d : Dev) (lat : Nat) (t : Target) : Dev :=
  d.withSched fun s =>
    { s with inFlight := s.inFlight ++ [⟨s.sc + lat, s.order, t⟩], order := s.order + 1,
             lastBusy := max s.lastBusy (s.sc + lat) }

/-- Seed of the loaded image (R61). -/
def Dev.seed (d : Dev) : Nat := match d.sched.image with | some im => im.seed | none => 0

/-- A sample of a monitor source on a unit (R369, R370): every enabled channel that watches it takes it. -/
def Dev.sample (d : Dev) (source unit : Nat) (v : Int) : Dev :=
  let v := max (-2147483648) (min 2147483647 v)
  (List.range 64).foldl (fun d c =>
    let u := d.getF fMON_CFG_UNIT [c]
    if d.flag fMON_CFG_ENABLE [c] && d.getF fMON_CFG_SOURCE [c] = source && (u = 0xFF || u = unit) then
      let lo := signed 32 (d.getF fMON_MINMAX_MIN [c])
      let hi := signed 32 (d.getF fMON_MINMAX_MAX [c])
      let base := signed 32 (d.getF fMON_CFG_BASE [c])
      let width : Int := ((2 ^ d.getF fMON_CFG_SHIFT [c] : Nat) : Int)
      let bin : Nat := if v < base then 0 else if v ≥ base + 30 * width then 31 else 1 + ((v - base) / width).toNat
      let d1 := (d.setF fMON_MINMAX_MIN [c] (wrap 32 (min lo v))).setF fMON_MINMAX_MAX [c] (wrap 32 (max hi v))
      let d2 := (d1.count .rMON_SAMPLES [c] 1).satAddF (if bin % 2 = 0 then fMON_BIN_BIN_LO else fMON_BIN_BIN_HI) [c, bin / 2] 1
      let lim := signed 32 (d2.getF fMON_LIMIT_LIMIT [c])
      let crossed := if d2.flag fMON_CFG_ABOVE [c] then v > lim else v < lim
      let due := match Tab.find d2.monLast c with
        | some t => d2.sched.ref ≥ t + 9 * 800000
        | none => true
      if d2.flag fMON_CFG_LIMIT_EN [c] && crossed && due then
        { d2 with monLast := Tab.insert d2.monLast c d2.sched.ref }.fire 28 c
      else d2
    else d) d

/-- Flags of SCH_HOLD_STAT that explain a late item where the part knows the reason (R37, R272): a controller in doubled refresh, a
link over its retry budget, a page request outstanding. -/
def Dev.holdFlags (d : Dev) : Nat :=
  let r2x := (List.range 20).any fun u => d.flag fMEM_STAT_REFRESH2X [u]
  let pri := d.xfer.any fun x => x.2.ctxs.any fun c =>
    match c.wait with
    | some (.paging _ _) => true
    | some (.translating _) | some (.slot _) | none => false
  b2n r2x + 2 * b2n d.fab.retried + 4 * b2n pri

/-- What is so at any moment of a hold stays in its flags (Table 2-9). -/
def Dev.noteFlags (d : Dev) : Dev :=
  if d.sched.hold.freeze.isSome && d.sched.hold.isHold then
    d.withHold fun h => { h with flags := Nat.lor h.flags d.holdFlags }
  else d

/-- A cause joins the hold: a hold in effect is counted for it then, one that is pending when it takes effect (R34, R37; log
entry 71). -/
def Dev.joinHold (d : Dev) (cause : Nat) : Dev :=
  let counts := d.sched.hold.held && !bit d.sched.hold.causeSet cause
  let d1 := d.withHold fun h => { h with causeSet := putBits h.causeSet cause cause 1 }
  if counts then d1.count .rSCH_HOLD_CNT [cause] 1 else d1

/-- A hold takes effect: it is counted once for every cause that has joined it (R37; log entry 71). -/
def Dev.countCauses (d : Dev) : Dev :=
  if d.sched.hold.isHold then
    (List.range 16).foldl (fun d c => if bit d.sched.hold.causeSet c then d.count .rSCH_HOLD_CNT [c] 1 else d) d
  else d

/-- Broadcast a freeze with a hold cause at a freeze cycle (R33, R34, R36): the first reason starts the hold, every later
one joins it. A freeze already in effect because of a stopping fault is no hold (R37). -/
def Dev.startHold (d : Dev) (cause freeze : Nat) : Dev :=
  let h := d.sched.hold
  match h.freeze with
  | some _ =>
    if d.sched.stop.isSome ∧ !h.isHold then d
    else (d.joinHold cause).withHold fun h =>
      { h with releasing := none, met := false, judged := if h.met then some false else h.judged }
  | none =>
    let d1 := d.withHold fun h =>
      { h with freeze := some freeze, held := false, releasing := none, isHold := true, cause := cause,
               causeSet := 2 ^ cause, flags := d.holdFlags, freezeReg := freeze, periods := 0 }
    if cause = 7 ∨ cause = 8 ∨ d1.flag fSCH_CTL_HOLD_EVENT [] then d1.fire 2 cause else d1

end Sys2Proof.Machine
end

