-- ==== Sys2Proof/Machine/Float.lean ====
section
/-! DEFINITION. Floating-point values and FP32 arithmetic (R53, R54): exact dyadic values, one rounding function, sums,
products, fused products, quotients, roots and comparisons. -/
namespace Sys2Proof.Machine

/-- The value of a floating-point number: NaN, an infinity, or (−1)^neg × man × 2^exp exactly. -/
inductive Val where
  | nan
  | inf (neg : Bool)
  | fin (neg : Bool) (man : Nat) (exp : Int)
  deriving DecidableEq, Repr

/-- A floating-point format of Table 3-1: exponent and mantissa widths, bias, the exponent field and mantissa of the largest
finite value, whether it has infinities, its canonical NaN if it has NaN (R53). -/
structure Fmt where
  ebits : Nat
  mbits : Nat
  bias  : Nat
  emax  : Nat
  mmax  : Nat
  hasInf : Bool
  nan   : Option Nat

def fp32 : Fmt := ⟨8, 23, 127, 254, 0x7FFFFF, true, some 0x7FC00000⟩
def bf16 : Fmt := ⟨8, 7, 127, 254, 0x7F, true, some 0x7FC0⟩
def fp16 : Fmt := ⟨5, 10, 15, 30, 0x3FF, true, some 0x7E00⟩
def e4m3 : Fmt := ⟨4, 3, 7, 15, 6, false, some 0x7F⟩
def e5m2 : Fmt := ⟨5, 2, 15, 30, 3, true, some 0x7E⟩
def e3m2 : Fmt := ⟨3, 2, 3, 7, 3, false, none⟩
def e2m1 : Fmt := ⟨2, 1, 1, 3, 1, false, none⟩

/-- Sign bit of an encoding. -/
def Fmt.signBit (f : Fmt) (w : Nat) : Bool := bit w (f.ebits + f.mbits)

/-- The value of an encoding (Table 3-1). Every NaN reads as the one NaN (R53). -/
def Fmt.decode (f : Fmt) (w : Nat) : Val :=
  let m := w % 2 ^ f.mbits
  let e := w / 2 ^ f.mbits % 2 ^ f.ebits
  let s := f.signBit w
  if e > f.emax ∨ (e = f.emax ∧ m > f.mmax) then
    if f.hasInf ∧ m = 0 then .inf s else .nan
  else if e = 0 then .fin s m (1 - (f.bias : Int) - f.mbits)
  else .fin s (m + 2 ^ f.mbits) ((e : Int) - f.bias - f.mbits)

/-- Smallest exponent of a unit in the last place: the subnormal spacing. -/
def Fmt.minExp (f : Fmt) : Int := 1 - (f.bias : Int) - f.mbits

/-- Rounding modes (R59). -/
inductive Mode where
  | rne
  | rtz
  | sr (r : Nat)
  deriving DecidableEq, Repr

/-- Whether to move a truncated magnitude one unit away from zero: `q` truncated, `rem` of `2^s` discarded (R59, R60). -/
def roundUp (m : Mode) (q rem s : Nat) : Bool :=
  match m with
  | .rne => rem * 2 > 2 ^ s || (rem * 2 == 2 ^ s && q % 2 == 1)
  | .rtz => false
  | .sr r => decide (r % 65536 < rem * 65536 / 2 ^ s)

/-- Round a magnitude to units of 2^u. -/
def roundUnit (m : Mode) (man : Nat) (exp u : Int) : Nat :=
  if exp ≥ u then man <<< (exp - u).toNat
  else
    let s := (u - exp).toNat
    let q := man >>> s
    if roundUp m q (man % 2 ^ s) s then q + 1 else q

/-- Round a nonzero magnitude to `p` significant bits, with units no smaller than 2^lo: the mantissa and its exponent. -/
def roundMag (m : Mode) (p : Nat) (lo : Int) (man : Nat) (exp : Int) : Nat × Int :=
  let u := max lo (exp + (Nat.log2 man : Int) + 1 - p)
  let q := roundUnit m man exp u
  if q ≥ 2 ^ p then (q / 2, u + 1) else (q, u)

/-- Encoding of a magnitude that is representable in the format: units of 2^u, u ≥ minExp. -/
def Fmt.pack (f : Fmt) (neg : Bool) (q : Nat) (u : Int) : Nat :=
  let s := if neg then 2 ^ (f.ebits + f.mbits) else 0
  if q < 2 ^ f.mbits then s + q
  else s + ((u - f.minExp).toNat + 1) * 2 ^ f.mbits + (q - 2 ^ f.mbits)

/-- The largest finite value: its mantissa and exponent. -/
def Fmt.maxMan (f : Fmt) : Nat := f.mmax + 2 ^ f.mbits
def Fmt.maxExp (f : Fmt) : Int := (f.emax : Int) - f.bias - f.mbits
def Fmt.maxCode (f : Fmt) (neg : Bool) : Nat :=
  (if neg then 2 ^ (f.ebits + f.mbits) else 0) + f.emax * 2 ^ f.mbits + f.mmax
def Fmt.infCode (f : Fmt) (neg : Bool) : Nat :=
  (if neg then 2 ^ (f.ebits + f.mbits) else 0) + (f.emax + 1) * 2 ^ f.mbits

/-- Whether a rounded magnitude exceeds the largest finite value. -/
def Fmt.exceeds (f : Fmt) (q : Nat) (u : Int) : Bool :=
  decide (u > f.maxExp) || (u == f.maxExp && decide (q > f.maxMan))

/-- Round a value to FP32 to nearest even (R54): overflow gives an infinity. -/
def Val.toFp32 (v : Val) : Nat :=
  match v with
  | .nan => 0x7FC00000
  | .inf n => fp32.infCode n
  | .fin n man exp =>
    if man = 0 then fp32.pack n 0 0
    else
      let (q, u) := roundMag .rne 24 fp32.minExp man exp
      if fp32.exceeds q u then fp32.infCode n else fp32.pack n q u

/-- The value of an FP32 encoding. -/
def val32 (w : Nat) : Val := fp32.decode w

/-- Whether a finite value overflows FP32 when rounded, or a nonzero one rounds to zero (R58). -/
def Val.over32 (v : Val) : Bool :=
  match v with
  | .fin _ man exp => if man = 0 then false else let (q, u) := roundMag .rne 24 fp32.minExp man exp; fp32.exceeds q u
  | _ => false
def Val.under32 (v : Val) : Bool :=
  match v with
  | .fin _ man exp => if man = 0 then false else (roundMag .rne 24 fp32.minExp man exp).1 == 0
  | _ => false

def Val.isNan : Val → Bool
  | .nan => true
  | .inf _ | .fin _ _ _ => false
def Val.isInf : Val → Bool
  | .inf _ => true
  | .nan | .fin _ _ _ => false
def Val.isZero : Val → Bool
  | .fin _ man _ => man == 0
  | .nan | .inf _ => false
def Val.negative : Val → Bool
  | .nan => false
  | .inf n => n
  | .fin n _ _ => n

/-- Negation and absolute value: a NaN gives NaN (R53). -/
def Val.neg : Val → Val
  | .nan => .nan
  | .inf n => .inf (!n)
  | .fin n m e => .fin (!n) m e
def Val.abs : Val → Val
  | .nan => .nan
  | .inf _ => .inf false
  | .fin _ m e => .fin false m e

/-- Multiply by a power of two, exactly (R66). -/
def Val.scale (v : Val) (k : Int) : Val :=
  match v with
  | .nan => .nan
  | .inf n => .inf n
  | .fin n m e => .fin n m (e + k)

/-- Signed integer mantissa at exponent `u`, which is no larger than the value's own. -/
def intAt (n : Bool) (m : Nat) (e u : Int) : Int :=
  let a : Int := ((m <<< (e - u).toNat : Nat) : Int)
  if n then -a else a

/-- Exact sum (R54): a zero sum is +0 unless both terms are −0. -/
def Val.add (a b : Val) : Val :=
  match a, b with
  | .nan, _ => .nan
  | .inf _, .nan => .nan
  | .fin _ _ _, .nan => .nan
  | .inf x, .inf y => if x = y then .inf x else .nan
  | .inf x, .fin _ _ _ => .inf x
  | .fin _ _ _, .inf y => .inf y
  | .fin n m e, .fin n' m' e' =>
    let u := min e e'
    let t := intAt n m e u + intAt n' m' e' u
    if t = 0 then .fin (m == 0 && m' == 0 && n && n') 0 0 else .fin (t < 0) t.natAbs u

/-- Exact product (R54). -/
def Val.mul (a b : Val) : Val :=
  match a, b with
  | .nan, _ => .nan
  | .inf _, .nan => .nan
  | .fin _ _ _, .nan => .nan
  | .inf x, .inf y => .inf (x != y)
  | .inf x, .fin y m _ => if m = 0 then .nan else .inf (x != y)
  | .fin x m _, .inf y => if m = 0 then .nan else .inf (x != y)
  | .fin n m e, .fin n' m' e' => .fin (n != n') (m * m') (e + e')

/-- Whether an operation on operands that are not NaN gives NaN: the invalid operations of R54. -/
def invalid2 (a b r : Val) : Bool := r.isNan && !a.isNan && !b.isNan

/-- FP32 addition, subtraction, multiplication and fused multiply-add on encodings, rounded once (R54). -/
def fadd (a b : Nat) : Nat := ((val32 a).add (val32 b)).toFp32
def fsub (a b : Nat) : Nat := ((val32 a).add (val32 b).neg).toFp32
def fmul (a b : Nat) : Nat := ((val32 a).mul (val32 b)).toFp32
def ffma (a b c : Nat) : Nat := (((val32 a).mul (val32 b)).add (val32 c)).toFp32

/-- Position of a value in the order of R54: −0 below +0, NaN above +∞. -/
def orderKey (w : Nat) : Int :=
  match val32 w with
  | .nan => (2 ^ 33 : Nat)
  | _ => if bit w 31 then -((w % 2 ^ 31 : Nat) : Int) - 1 else ((w % 2 ^ 31 : Nat) : Int)

/-- The larger and the smaller in the order of R54; a NaN result is canonical (R53). -/
def canon32 (w : Nat) : Nat := if (val32 w).isNan then 0x7FC00000 else w % 2 ^ 32
def fmax (a b : Nat) : Nat := canon32 (if orderKey a ≥ orderKey b then a else b)
def fmin (a b : Nat) : Nat := canon32 (if orderKey a ≤ orderKey b then a else b)

/-- Floor of a square root, by bits. -/
def isqrtGo (n : Nat) : Nat → Nat → Nat
  | 0, r => r
  | k + 1, r => let t := r + 2 ^ k; isqrtGo n k (if t * t ≤ n then t else r)
def isqrt (n : Nat) : Nat := isqrtGo n (Nat.log2 n / 2 + 1) 0

/-- Quotient, with more than enough bits and a sticky bit to round once afterwards. -/
def Val.div (a b : Val) : Val :=
  match a, b with
  | .nan, _ => .nan
  | .inf _, .nan => .nan
  | .fin _ _ _, .nan => .nan
  | .inf _, .inf _ => .nan
  | .inf x, .fin y _ _ => .inf (x != y)
  | .fin x _ _, .inf y => .fin (x != y) 0 0
  | .fin x m e, .fin y m' e' =>
    if m' = 0 then (if m = 0 then .nan else .inf (x != y))
    else if m = 0 then .fin (x != y) 0 0
    else
      let k := 64 + Nat.log2 m'
      let q := (m <<< k) / m'
      .fin (x != y) (2 * q + (if (m <<< k) % m' = 0 then 0 else 1)) (e - e' - k - 1)

/-- Square root, with more than enough bits and a sticky bit; of a negative number NaN, of −0 itself. -/
def Val.sqrt (a : Val) : Val :=
  match a with
  | .nan => .nan
  | .inf n => if n then .nan else .inf false
  | .fin n m e =>
    if m = 0 then .fin n 0 0
    else if n then .nan
    else
      let odd := e % 2 ≠ 0
      let m2 := (if odd then m * 2 else m) <<< 128
      let e2 := (if odd then e - 1 else e) - 128
      let r := isqrt m2
      .fin false (2 * r + (if r * r = m2 then 0 else 1)) (e2 / 2 - 1)

/-- ⌊log₂|x|⌋ of a nonzero finite value. -/
def Val.log2 (v : Val) : Int :=
  match v with
  | .fin _ m e => e + (Nat.log2 m : Int)
  | .nan | .inf _ => 0

/-- The exact value of an integer. -/
def Val.ofInt (i : Int) : Val := .fin (i < 0) i.natAbs 0

end Sys2Proof.Machine
end

