-- ==== Sys2Proof/Machine/Flags.lean ====
section
/-! DEFINITION. The sticky flags of a converting unit (R58). -/
namespace Sys2Proof.Machine

/-- Flags a conversion or an operation raises (R58). -/
structure Flags where
  nv : Bool := false
  of : Bool := false
  uf : Bool := false
  deriving DecidableEq, Repr

def Flags.or (a b : Flags) : Flags := ⟨a.nv || b.nv, a.of || b.of, a.uf || b.uf⟩

/-- All flags of a list of results. -/
def Flags.all (l : List Flags) : Flags := l.foldl Flags.or {}

/-- Flags of an FP32 result (R54, R58): invalid where no operand is NaN, overflow, a nonzero result rounded to zero. -/
def flags32 (operands : List Val) (r : Val) : Flags :=
  { nv := r.isNan && operands.all (fun v => !v.isNan), of := r.over32, uf := r.under32 }

/-- A product of numbers that is no number: 0 × ∞ (R54). -/
def badProduct (a b : Val) : Bool := !a.isNan && !b.isNan && (a.mul b).isNan

/-- Both infinities are among the addends: ∞ − ∞ (R54). -/
def badSum (l : List Val) : Bool := l.contains (.inf false) && l.contains (.inf true)

/-- Flags of a sum of products, rounded once (R54, R58, R64): each 0 × ∞ and each ∞ − ∞ is invalid, whatever the other operands. -/
def flagsDot (xs ys addends : List Val) (r : Val) : Flags :=
  { nv := (List.zipWith badProduct xs ys).any id || badSum (addends ++ List.zipWith Val.mul xs ys), of := r.over32, uf := r.under32 }

end Sys2Proof.Machine
end

