-- ==== Sys2Proof/Machine/Operands.lean ====
section
/-! DEFINITION. Operand formats: reading elements (R51, R52, R63), narrowing with saturation and flags (R55 to R60), the
random numbers of stochastic rounding (R61), block scales (R62 to R65) and the pairs a product allows (R64). -/
namespace Sys2Proof.Machine

/-- Width in bits of an element of a format code (Table 3-1); 0 for a reserved code. -/
def fmtBits (c : Nat) : Nat :=
  if c = 0 then 32 else if c = 1 ∨ c = 2 then 16 else if c = 3 ∨ c = 4 ∨ c = 7 then 8
  else if c = 5 then 6 else if c = 6 then 4 else 0

/-- The floating-point format of a code other than INT8. -/
def fmtOf (c : Nat) : Fmt :=
  if c = 1 then bf16 else if c = 2 then fp16 else if c = 3 then e4m3 else if c = 4 then e5m2
  else if c = 5 then e3m2 else if c = 6 then e2m1 else fp32

/-- The value of an element (R51); a scaled INT8 element is i × 2⁻⁶ (R57). -/
def elemVal (c : Nat) (scaled : Bool) (w : Nat) : Val :=
  if c = 7 then
    let i := signed 8 w
    .fin (i < 0) i.natAbs (if scaled then -6 else 0)
  else (fmtOf c).decode w

/-- The value of an element under a block scale E8M0 (R63). -/
def scaledVal (c : Nat) (scaled : Bool) (scale w : Nat) : Val :=
  if !scaled then elemVal c false w
  else if scale = 255 then .nan
  else (elemVal c true w).scale ((scale : Int) - 127)

/-- An element widened to FP32, exactly (R55). -/
def widen (c w : Nat) : Nat := (elemVal c false w).toFp32

/-- Element `i` of densely stored elements (R52). -/
def elemAt (c : Nat) (bs : List Nat) (i : Nat) : Nat :=
  let b := fmtBits c
  if b ≥ 8 then leNat ((bs.drop (i * (b / 8))).take (b / 8))
  else if b = 6 then leNat ((bs.drop (i / 4 * 3)).take 3) / 2 ^ (6 * (i % 4)) % 64
  else bs.getD (i / 2) 0 / 2 ^ (4 * (i % 2)) % 16

/-- `n` elements from bytes (R52). -/
def unpackElems (c : Nat) (bs : List Nat) (n : Nat) : List Nat := (List.range n).map (elemAt c bs)

/-- Bytes that `n` elements take, the last group or byte completed (R52). -/
def fmtBytes (c n : Nat) : Nat := if c = 5 then ceilDiv n 4 * 3 else ceilDiv (n * fmtBits c) 8

/-- Elements packed densely (R52); a partial last group is completed with zeros. -/
def packElems (c : Nat) (es : List Nat) : List Nat :=
  let b := fmtBits c
  if b ≥ 8 then es.flatMap fun e => leBytes (b / 8) e
  else if b = 6 then
    (List.range (ceilDiv es.length 4)).flatMap fun g =>
      leBytes 3 ((List.range 4).foldl (fun acc i => acc + es.getD (4 * g + i) 0 % 64 * 2 ^ (6 * i)) 0)
  else (List.range (ceilDiv es.length 2)).map fun g => es.getD (2 * g) 0 % 16 + es.getD (2 * g + 1) 0 % 16 * 16

/-! ## Narrowing -/

/-- What an overflow gives (Table 3-2): the encoding and the flags. -/
def overflowCode (f : Fmt) (m : Mode) (sat neg : Bool) : Nat × Flags :=
  if m = .rtz ∨ sat then (f.maxCode neg, { of := true })
  else if f.hasInf then (f.infCode neg, { of := true })
  else match f.nan with
    | some n => (n, { of := true })
    | none => (f.maxCode neg, { of := true })

/-- Narrow a value to a floating-point format (R56, Table 3-2, R60). -/
def narrowFloat (f : Fmt) (m : Mode) (sat : Bool) (v : Val) : Nat × Flags :=
  match v with
  | .nan => match f.nan with
    | some n => (n, {})
    | none => (0, { nv := true })
  | .inf neg =>
    if f.hasInf then (f.infCode neg, {})
    else match f.nan with
      | some n => if sat then (f.maxCode neg, { of := true }) else (n, { nv := true })
      | none => (f.maxCode neg, { of := true })
  | .fin neg man exp =>
    if man = 0 then (f.pack neg 0 0, {})
    else
      let (q, u) := roundMag m (f.mbits + 1) f.minExp man exp
      if f.exceeds q u then overflowCode f m sat neg
      else (f.pack neg q u, { uf := q == 0 })

/-- Narrow to INT8 (R57): unscaled to an integer, scaled to a multiple of 2⁻⁶ within ±127. -/
def narrowInt8 (m : Mode) (scaled : Bool) (v : Val) : Nat × Flags :=
  let lowest := if scaled then 129 else 128
  match v with
  | .nan => (0, { nv := true })
  | .inf neg => (if neg then lowest else 127, { of := true })
  | .fin neg man exp =>
    let q := roundUnit m man exp (if scaled then -6 else 0)
    let top := if neg ∧ !scaled then 128 else 127
    if q > top then (if neg then lowest else 127, { of := true })
    else (if neg then (256 - q) % 256 else q, { uf := q == 0 && man != 0 })

/-- Narrow to a format code; `scaled` for an element under a block scale (R56, R57). -/
def narrow (c : Nat) (m : Mode) (sat scaled : Bool) (v : Val) : Nat × Flags :=
  if c = 7 then narrowInt8 m scaled v else narrowFloat (fmtOf c) m sat v

/-! ## Stochastic rounding -/

def m64 (n : Nat) : Nat := n % 2 ^ 64

/-- `mix` of R61. -/
def mix (z : Nat) : Nat :=
  let z1 := m64 (Nat.xor z (z >>> 30) * 0xBF58476D1CE4E5B9)
  let z2 := m64 (Nat.xor z1 (z1 >>> 27) * 0x94D049BB133111EB)
  Nat.xor z2 (z2 >>> 31)

/-- The 16-bit random number of an element (R61). -/
def srNumber (seed tid draw row col : Nat) : Nat :=
  let k := mix (Nat.xor (Nat.xor (m64 seed) (tid % 65536 * 2 ^ 32)) (draw % 2 ^ 32))
  let z := mix (Nat.xor (Nat.xor (Nat.xor k (row % 2 ^ 32 * 2 ^ 32)) (col % 2 ^ 32)) 0x9E3779B97F4A7C15)
  z >>> 48

/-- The mode of a rounding code (R59); the random number is used by stochastic rounding alone. -/
def modeOf (code r : Nat) : Mode := if code = 1 then .rtz else if code = 2 then .sr r else .rne

/-! ## Block scales -/

/-- emax of R65. -/
def blockEmax (c : Nat) : Int := if c = 3 then 8 else if c = 4 then 15 else if c = 5 then 4 else if c = 6 then 2 else 0

/-- Compare magnitudes of finite values: the larger. -/
def maxMag (a b : Val) : Val :=
  match (a.abs.add b.abs.neg) with
  | .fin true _ _ => b.abs
  | _ => a.abs

/-- Scale and elements of a block of values (R65): scale, elements, flags. `mode i` is the mode of element `i`. -/
def blockScale (c : Nat) (mode : Nat → Mode) (xs : List Val) : Nat × List Nat × Flags :=
  if xs.any Val.isNan || (xs.any Val.isInf && c ≠ 4) then (255, xs.map fun _ => 0, { nv := true })
  else
    let amax := (xs.filter fun v => !v.isInf).foldl maxMag (.fin false 0 0)
    let e : Int := if amax.isZero then -127 else max (-127) (min 127 (amax.log2 - blockEmax c))
    let r := (List.range xs.length).map fun i => narrow c (mode i) true true ((nth .nan xs i).scale (-e))
    ((e + 127).toNat, r.map (·.1), Flags.all (r.map (·.2)))

/-! ## Pairs of formats -/

/-- Whether a code is an FP8, FP6 or FP4 format. -/
def narrowFmt (c : Nat) : Bool := c = 3 || c = 4 || c = 5 || c = 6

/-- The pairs a product allows (R64). -/
def pairOk (a b : Nat) : Bool :=
  (a = 0 && b = 0) || (a = 7 && b = 7) || ((a = 1 || a = 2) && (b = 1 || b = 2)) || (narrowFmt a && narrowFmt b)

/-- A scale is allowed on a format (Table 3-3). -/
def scaleOk (c : Nat) : Bool := narrowFmt c || c = 7

end Sys2Proof.Machine
end

