-- ==== Sys2Proof/Machine/Network.lean ====
section
/-! DEFINITION. The on-die network: the timetable and the paths it gives scheduled flits (R256 to R258), their arrival (R205, R257,
R259), the router adders (R261, R262) and the bridges (R263). -/
namespace Sys2Proof.Machine

/-! ## The timetable -/

/-- A timetable entry (R258). -/
structure Resv where
  router : Nat
  out : Nat
  inp : Nat
  phase : Nat
  reps : Nat
  stride : Nat
  node : Nat
  deriving DecidableEq, Repr

def resvOf (w : Nat) : Resv :=
  ⟨bits w 5 0, bits w 9 6, bits w 13 10, bits w 26 14, bits w 39 27 + 1, bits w 52 40, bits w 60 53⟩

/-- Entries of a TIMETABLE section, from its bytes. -/
def ttEntries (s : List Nat) : List Resv :=
  (List.range (leNat ((s.drop 4).take 4))).map fun i => resvOf (leNat ((s.drop (16 + 8 * i)).take 8))

/-- The section of a yard in the loaded image. -/
def Dev.timetable (d : Dev) (y : Nat) : Option (List Nat) :=
  d.sched.image.bind fun im => im.timetables.find? fun s => s.getD 0 0 = y

/-- Whether an entry reserves a phase, in a period of `n` phases. -/
def Resv.at (r : Resv) (n q : Nat) : Bool :=
  let p := q % n
  r.phase ≤ p && (p - r.phase) % max 1 r.stride = 0 && (p - r.phase) / max 1 r.stride < r.reps

/-- Outputs and nodes reserved for what entered router `n` of yard `y` on input `i` at phase `q` (R256). -/
def Dev.outputs (d : Dev) (y n i q : Nat) : List (Nat × Nat) :=
  match d.timetable y with
  | none => []
  | some s =>
    let period := 2 * leNat ((s.drop 2).take 2)
    let leave := q + 2 * d.latency 11
    (ttEntries s).filterMap fun r =>
      if r.router = n ∧ r.inp = i ∧ r.at period leave then some (r.out, r.node) else none

/-- Clock region of a router (R250): 4 per yard. -/
def quadrant (n : Nat) : Nat :=
  if n / 8 < 3 then (if n % 8 < 4 then 0 else 1) else (if n % 8 < 4 then 3 else 2)
def regionOf (y n : Nat) : Nat := 4 * y + quadrant n

/-- An output lets flits out: of the bridge lanes those that are up (R301, Table 13-10). -/
def Dev.laneUp (d : Dev) (y n o : Nat) : Bool :=
  match endpointAt n o with
  | some (c, _) => if 64 ≤ c ∧ c < 78 then bit (d.word .rNOC_BRIDGE [y]).toNat (c - 64) else true
  | none => true

/-- Where a flit that entered a router goes, hop by hop (R256, R257, R263): what reaches endpoints and adders, and the first router
that had no reservation for it, or had one for a lane that is down (log entry 80). `f` is the flit as it was handed over. -/
def Dev.trace (d : Dev) (f : NetFlit) : Nat → Nat → Nat → Nat → Nat → List (Nat × Nat) → List NetFlit × Option (Nat × Nat)
  | 0, y, n, _, _, _ => ([], some (y, n))
  | fuel + 1, y, n, i, q, lanes =>
    let leave := q + 2 * d.latency 11
    match d.outputs y n i q with
    | [] => ([], some (y, n))
    | outs =>
      outs.foldl (fun (acc : List NetFlit × Option (Nat × Nat)) o =>
        let here : List NetFlit × Option (Nat × Nat) :=
          ([{ f with phase := leave, yard := y, router := n, port := o.1, node := o.2, lanes := lanes }], none)
        let step : List NetFlit × Option (Nat × Nat) :=
          match neighbour n o.1 with
          | some m => d.trace f fuel y m (oppositePort o.1) leave lanes
          | none =>
            match endpointAt n o.1 with
            | some (c, _) =>
              if !d.laneUp y n o.1 then ([], some (y, n))
              else if 64 ≤ c ∧ c < 78 then
                let y' := if c < 72 then bxYard y else byYard y
                match placeOf c with
                | some (m, p) => d.trace f fuel y' m p (leave + 2 * d.latency 10) ((16 * y + (c - 64), leave) :: lanes)
                | none => ([], some (y, n))
              else here
            | none => here
        (acc.1 ++ step.1, acc.2.or step.2)) ([], none)

/-- A flit as an endpoint hands it over. -/
def newFlit (src : Nat × Nat) (dest : NetDest) (data : List (Option Nat)) : NetFlit :=
  { phase := 0, yard := src.1, router := 0, port := 0, node := 0, dest := dest, src := src, data := data, lanes := [] }

/-- A flit enters a router's input in phase `q` (R256, R259): where its path ends for want of a reservation is where the failure is
detected. -/
def Dev.sendFlit (d : Dev) (y n i q : Nat) (f : NetFlit) : Dev :=
  let (fs, lost) := d.trace f 64 y n i q []
  let d1 := { d with net := d.net ++ fs }
  match lost with
  | some (y', n') => d1.violation 5 y' 3 (regionOf y' n')
  | none => d1

/-- Whether a local input has been handed a flit in a half of the present sc (R252). -/
def Dev.isHanded (d : Dev) (y n port half : Nat) : Bool := d.netPorts.handed.contains (48 * y + n, port, half)
def Dev.markHanded (d : Dev) (y n port half : Nat) : Dev :=
  { d with netPorts := { d.netPorts with handed := (48 * y + n, port, half) :: d.netPorts.handed } }

/-- The engine of an endpoint is fenced (R264). -/
def Dev.endFenced (d : Dev) (y c : Nat) : Bool :=
  if c < 16 then d.cmdFenced y 0 (d.posM y c)
  else if c < 24 then d.cmdFenced y 1 (d.posV y (c - 16))
  else if c < 28 then d.cmdFenced y 2 (d.posS y (c - 24))
  else 32 ≤ c && c < 40 && d.cmdFenced y 3 (c - 32)

/-- A fixed-latency source hands a flit to its local input (R252, R256): a second one in a phase has no place there, and no path
(log entry 80). A fenced engine sends none, so that there is no data at the handing phase (R259, R264). -/
def Dev.handOver (d : Dev) (y c n port half : Nat) (dest : NetDest) (data : List (Option Nat)) : Dev :=
  let d1 := d.count .rNOC_P1_FLITS [y] 1
  if d.endFenced y c then d.violation 5 y 3 (regionOf y n)
  else if d1.isHanded y n port half then d1.violation 5 y 3 (regionOf y n)
  else (d1.markHanded y n port half).sendFlit y n port (2 * d1.sched.sc + half) (newFlit (y, c) dest data)

/-- A flit that port `k` of an endpoint hands over `lat` sc from now, in a half of that sc (R257). -/
def Dev.handFlit (d : Dev) (y c k half lat : Nat) (dest : NetDest) (data : List (Option Nat)) : Dev :=
  match placeOf c with
  | some (n, p) => d.deliver lat (.hand y c n (p + k) half dest data)
  | none => d

/-! ## Arrival -/

/-- Whether a header address lies in the memory of an endpoint of yard `y` (R252, R257); no hop reaches a drain queue (R198), and a
gradient port is that of the unit named (R262). -/
def endpointHolds (y c : Nat) (dest : NetDest) (len : Nat) : Bool :=
  match dest with
  | .mem yard space eng off =>
    (match yard with | some y' => y' = y | none => true) && decide (off + len ≤ spaceSize space) &&
    (if c < 16 then (space = 1 || space = 2) && eng = c
    else if c < 24 then space = 3 && eng = c - 16
    else if c < 28 then space = 5 && eng = c - 24
    else if 40 ≤ c ∧ c < 48 then space = 0
    else false)
  | .grad u => 48 ≤ c && c < 54 && u = 5 * y + (if c < 51 then c - 48 else c - 52 + 3)
  | .fabric _ _ _ _ => 56 ≤ c && c < 62
  | .nowhere => false

/-- Enabled bytes of a flit as scattered writes from an address on (R252). -/
def flitWrites (a : Nat) (data : List (Option Nat)) : List (Nat × Nat × Nat) :=
  (List.range data.length).filterMap fun i =>
    match nth none data i with
    | some b => some (a + i, 255, b)
    | none => none

/-- The network's port of a memory (R203, R204): YPk of the yard store by its endpoint, any other memory's own. -/
def netPort (c : Nat) : Nat := if 40 ≤ c ∧ c < 48 then c - 40 else 4

/-- Bytes that a gradient port holds at most, and the elements that enter it (R170): those of a scheduled flit that finds no room are
lost, a write out of its slack (R259; log entry 81). -/
def Dev.gradEnter (d : Dev) (u region : Nat) (bs : List Nat) : Dev :=
  let q := Tab.get [] d.gradPort u
  if q.length + bs.length > 0x100000 then d.violation 5 (u / 5) 3 region else { d with gradPort := Tab.put [] d.gradPort u (q ++ bs) }

/-- A scheduled flit enters a side of an adder node (R261): a ninth is one the spec does not provide for. -/
def Dev.enterNode (d : Dev) (f : NetFlit) : Dev :=
  let key := 65536 * f.yard + 256 * f.router + f.node
  let node := Tab.get {} d.nodes key
  if (if f.port = 8 then node.left else node.right).length ≥ 8 then
    let d1 := { d with nonce := d.nonce + 1 }
    if Config.freeBool d.nonce then d1.violation 5 f.yard 3 (regionOf f.yard f.router) else d1
  else
    let node' : AddNode :=
      if f.port = 8 then { node with left := node.left ++ [(f.phase, f.data)] }
      else { node with right := node.right ++ [(f.phase, f.data)] }
    { d with nodes := Tab.insert d.nodes key node' }

/-- A scheduled flit at the end of its path (R205, R257, R259): a write is presented to the banks of its memory, at the network's
port, and is in place E_dst later if they serve it within the 4 sc of slack. -/
def Dev.arrive (d : Dev) (f : NetFlit) : Dev :=
  let y := f.yard
  let region := regionOf y f.router
  if f.port = 8 ∨ f.port = 9 then d.enterNode f
  else
    match endpointAt f.router f.port with
    | none => d
    | some (c, _) =>
      let fault : FaultInfo := { code := 9, detail := 0, yard := y, kind := 3, pos := quadrant f.router }
      match f.dest with
      | .mem _ space eng off =>
        let e := if space = 0 then 0 else eng
        let a := onchipAddr y space e off
        if !endpointHolds y c f.dest f.data.length then d.boundsFault fault a
        else
          match d.checkAccess a f.data.length with
          | .good =>
            let ws := flitWrites a f.data
            let (acc, d1) := d.present y space e true (netPort c) 1 true (rowsOf space (ws.map fun w => w.1 - onchipAddr y space e 0))
            d1.deliver 4 (.slack acc region (if space = 0 then 2 else 4) (.scatter ws))
          | .fenced y => d.count .rOCM_FENCED_DROP [y] 1
          | .bounds => d.boundsFault fault a
      | .grad u =>
        if !endpointHolds y c f.dest 0 then d.boundsFault fault 0
        else d.deliver 2 (.grad u (f.data.map fun b => b.getD 0))
      | .fabric xn no chunk off =>
        if !endpointHolds y c f.dest 0 then d.boundsFault fault 0
        else d.setX xn ((d.x xn).updateFixed no fun x => { x with outbox := x.outbox ++ [(chunk, off, f.data.map fun b => b.getD 0)] })
      | .nowhere => d.boundsFault fault 0

/-- A flit that leaves its path now: one whose phase has come, or, while the part is frozen, one of a variable-latency descriptor on
its way to an endpoint, which a freeze does not hold up (R260; log entry 82). -/
def dueFlit (now : Nat) (frozen : Bool) : List NetFlit → Option (NetFlit × List NetFlit)
  | [] => none
  | f :: fs =>
    if (if frozen then f.cargo.isSome else decide (f.phase / 2 ≤ now)) then some (f, fs)
    else (dueFlit now frozen fs).map fun r => (r.1, f :: r.2)

/-! ## Adders -/

/-- The TREE record of an on-die node (R262). -/
def Dev.treeNode (d : Dev) (y n node : Nat) : Option (List Nat) :=
  d.sched.image.bind fun im =>
    im.trees.find? fun r => r.getD 0 0 = 1 ∧ r.getD 1 0 = y ∧ r.getD 2 0 = n ∧ r.getD 3 0 = node

/-- Bytes of an element, if every one is enabled; none if none is. -/
def elemBytes (data : List (Option Nat)) (i w : Nat) : List (Option Nat) := (data.drop (i * w)).take w

/-- Sum of two flits, element by element (R261, R67): an element enabled on one side only is a free value. -/
def addFlits (bf : Bool) (nonce : Nat) (l r : List (Option Nat)) : List (Option Nat) :=
  let w := if bf then 2 else 4
  (List.range (256 / w)).flatMap fun i =>
    let a := elemBytes l i w
    let b := elemBytes r i w
    if a.all Option.isSome && b.all Option.isSome && a.length = w && b.length = w then
      let x := leNat (a.map fun o => o.getD 0)
      let y := leNat (b.map fun o => o.getD 0)
      let s := if bf then (narrow 1 .rne false false (val32 (fadd (widen 1 x) (widen 1 y)))).1 else fadd x y
      (leBytes w s).map some
    else if a.any Option.isSome || b.any Option.isSome then
      (leBytes w (Config.freeWord (nonce + i))).map some
    else List.replicate w none

/-- Header of the `k`-th output of a node (R262). -/
def nodeDest (r : List Nat) (k : Nat) : NetDest :=
  let w := leNat ((r.drop 8).take 8)
  if r.getD 5 0 = 1 then
    let n := leNat ((r.drop 16).take 4) / 256
    .mem none (bits w 42 40) (bits w 39 32) (bits w 31 0 + 256 * (if n = 0 then 0 else k % n))
  else if r.getD 5 0 = 2 then .grad (bits w 4 0)
  else .nowhere

/-- Output of one node of a router in phase `q` (R261): the pair at the head of its queues, once 2a phases have passed. -/
def Dev.addNode (d : Dev) (y n node q : Nat) : Dev :=
  let key := 65536 * y + 256 * n + node
  let s := Tab.get {} d.nodes key
  if s.served = q + 1 then d
  else
    match s.left, s.right with
    | [], [] => d
    | (p, a) :: ls, (p', b) :: rs =>
      let d0 := { d with nodes := Tab.insert d.nodes key { s with served := q + 1 } }
      if max p p' + 2 * d.latency 12 > q then d0.violation 5 y 3 (regionOf y n)
      else
        match d.treeNode y n node with
        | none => d0
        | some r =>
          let data := addFlits (r.getD 4 0 = 1) d.nonce a b
          let d1 := { d0 with
            nonce := d.nonce + 128
            nodes := Tab.insert d.nodes key { s with left := ls, right := rs, outs := s.outs + 1, served := q + 1 } }
          (d1.count .rNOC_ADD_FLITS [y] 1).sendFlit y n 8 q (newFlit (y, n) (nodeDest r s.outs) data)
    | _, _ => { d with nodes := Tab.insert d.nodes key { s with served := q + 1 } }.violation 5 y 3 (regionOf y n)

/-- Nodes of a router that have an output reserved from its adder in phase `q`. -/
def Dev.adderNodes (d : Dev) (y n q : Nat) : List Nat := (d.outputs y n 8 q).map (·.2) |>.eraseDups

/-- ADDER_OUTPUT (R261), in a half of the present sc; the adder of a router that has stopped gives none (R352). -/
def execAdderOutput (yard : Fin 4) (router : Fin 48) (half : Bool) (ecc : Ecc) (s : State) :
    Host.Outcome State Fault Refusal :=
  s.upd fun _ d =>
    let q := 2 * d.sched.sc + b2n half
    let d1 := d.unitEcc ecc 3 yard.val 3 (regionOf yard.val router.val) (routerUnit yard.val router.val) router.val
    if d1.isStopped (routerUnit yard.val router.val) then d1 else
    (d1.adderNodes yard.val router.val q).foldl (fun d node => d.addNode yard.val router.val node q) d1

/-- Adders that have work in a phase of the present sc: yard, router, half. -/
def Dev.addersDue (d : Dev) : List (Nat × Nat × Bool) :=
  d.nodes.flatMap fun e =>
    let y := e.1 / 65536
    let n := e.1 / 256 % 256
    if (e.2.left.isEmpty && e.2.right.isEmpty) || d.isStopped (routerUnit y n) then []
    else [false, true].filterMap fun half =>
      let q := 2 * d.sched.sc + b2n half
      if e.2.served ≤ q && (d.adderNodes y n q).contains (e.1 % 256) then some (y, n, half) else none

/-! ## Bridges -/

/-- Router of a lane: 0 to 5 BX, 6 to 11 BY (Table 13-2). -/
def laneRouter (lane : Nat) : Nat :=
  match placeOf (if lane < 6 then 64 + lane else 66 + lane) with
  | some (n, _) => n
  | none => 0

/-- The bridge lane's two ends: the router across, and the yard (R251, R263). -/
def laneFar (y lane : Nat) : Nat × Nat := (if lane < 6 then bxYard y else byYard y, laneRouter lane)

/-- A scheduled flit on a lane now: the phase in which it left. -/
def Dev.onLane (d : Dev) (key : Nat) : Option Nat :=
  let now := 2 * d.sched.sc + 1
  d.net.findSome? fun f => (f.lanes.find? fun l => l.1 = key && l.2 ≤ now && now ≤ l.2 + 2 * d.latency 10).map (·.2)

/-- BRIDGE_RESEND (R263): a flit on a lane fails its CRC and is resent; `lost` says that a scheduled flit has failed twice: every copy
that its path makes beyond the bridge is lost with it, and the far end detects it. A resend holds a dynamic flit up for another
crossing (log entry 80). Lanes 0 to 5 are BX, 6 to 11 BY. -/
def execBridgeResend (yard : Fin 4) (lane : Fin 12) (lost : Bool) (s : State) : Host.Outcome State Fault Refusal :=
  s.upd fun _ d =>
    let y := yard.val
    let d1 := d.count .rNOC_BR_RETRY [y] 1
    let d2 := if d1.flag fNOC_CTL_RETRY_EVENT [y] then d1.fire 16 (64 * y + laneRouter lane.val) else d1
    let key := 16 * y + (if lane.val < 6 then lane.val else lane.val + 2)
    let (y', n') := laneFar y lane.val
    match d2.onLane key with
    | some phase =>
      if !lost then d2
      else
        ({ d2 with net := d2.net.filter fun f => !f.lanes.contains (key, phase) }.setF fNOC_BRIDGE_LOST [y] 1).violation 5 y' 3
          (regionOf y' n')
    | none =>
      let inp := match placeOf (64 + (if lane.val < 6 then lane.val else lane.val + 2)) with | some (_, p) => p | none => 0
      { d2 with dyn := d2.dyn.map fun (f : DynFlit) =>
          if f.place = some (y', n', inp) ∧ d2.netPorts.phase < f.entered then { f with entered := f.entered + 2 * d2.latency 10 } else f }

end Sys2Proof.Machine
end

