-- ==== Sys2Proof/Machine/NetDynamic.lean ====
section
/-! DEFINITION. The dynamic classes of the on-die network (R253 to R255, R260, R265): source queues, virtual channels, the route
tables, arbitration in each phase; and the VC2 flits that ride reserved paths (R256). -/
namespace Sys2Proof.Machine

/-! ## Endpoints -/

/-- Endpoint of a controller and its update unit (R251, R159), and of a fabric port. -/
def ctlEnd (u : Nat) : Nat × Nat := (u / 5, if u % 5 < 3 then 48 + u % 5 else 52 + u % 5 - 3)
def fabEnd (p : Nat) : Nat × Nat := (p / 6, 56 + p % 6)

/-- Endpoint of an on-chip byte (Table 13-2): of the eight yard-store ports the one that its aligned 256 bytes select in turn (log
entry 80). -/
def onchipEnd (y space e off : Nat) : Nat × Nat :=
  (y, if space = 0 then 40 + off / 256 % 8 else if space ≤ 2 then e else if space ≤ 4 then 16 + e else 24 + e)

/-- Clock region of an endpoint's router. -/
def endRegion (p : Nat × Nat) : Nat := regionOf p.1 (match placeOf p.2 with | some (n, _) => n | none => 0)

/-- An endpoint sends a flit (R252): it joins the source queue of its virtual channel. -/
def Dev.sendDyn (d : Dev) (vc : Nat) (src dst : Nat × Nat) (cargo : Cargo) : Dev :=
  { d with
    dyn := d.dyn ++ [{ no := d.netPorts.sent, vc := vc, src := src, dst := dst, sent := d.netPorts.phase, cargo := cargo }]
    netPorts := { d.netPorts with sent := d.netPorts.sent + 1 } }

/-! ## Routes -/

/-- Output port of a router's table for a destination of Table 13-12. -/
def Dev.tablePort (d : Dev) (y n dest : Nat) : Nat := bits (d.word .rNOC_ROUTE [y, n, dest / 16]).toNat (4 * (dest % 16) + 3) (4 * (dest % 16))

/-- The destination that a flit's tables are asked for in a yard: the router of its endpoint, or the yard it is bound for. -/
def tableDest (y : Nat) (dst : Nat × Nat) : Nat :=
  if dst.1 = y then (match placeOf dst.2 with | some (m, _) => m | none => 0)
  else if dst.1 = bxYard y then 48 else if dst.1 = byYard y then 49 else 50

/-- The output a flit takes at a router (R254): its endpoint's local port where it has arrived, else what the table says. -/
def Dev.nextOut (d : Dev) (y n : Nat) (dst : Nat × Nat) : Nat :=
  match placeOf dst.2 with
  | some (m, p) => if dst.1 = y ∧ m = n then p else d.tablePort y n (tableDest y dst)
  | none => 0

/-- Where an output leads: the router input it enters and the phases it takes, or none where an endpoint takes the flit. -/
def Dev.leads (d : Dev) (y n o : Nat) : Option ((Nat × Nat × Nat) × Nat) :=
  match neighbour n o with
  | some m => some ((y, m, oppositePort o), 0)
  | none =>
    match endpointAt n o with
    | some (c, _) =>
      if 64 ≤ c ∧ c < 78 then
        (placeOf c).map fun mp => (((if c < 72 then bxYard y else byYard y), mp.1, mp.2), 2 * d.latency 10)
      else none
    | none => none

/-! ## Phases -/

/-- The part is frozen, or no run executes: no phase is reserved (R260). -/
def Dev.noReserve (d : Dev) : Bool := !(d.run.inRun && d.sched.begun) || d.sched.hold.held

/-- Whether the timetable reserves an output of a router in a half of the present sc (R253, R256). -/
def Dev.isReserved (d : Dev) (y n o half : Nat) : Bool :=
  !d.noReserve &&
    match d.timetable y with
    | none => false
    | some s =>
      let period := 2 * leNat ((s.drop 2).take 2)
      (ttEntries s).any fun r => r.router = n && r.out = o && r.at period (2 * d.sched.sc + half)

/-- Flits of a virtual channel that a router input holds: it buffers 4 (R253). -/
def Dev.buffered (d : Dev) (at_ : Nat × Nat × Nat) (vc : Nat) : Nat :=
  (d.dyn.filter fun g => g.place = some at_ && g.vc = vc).length

/-- An update unit's endpoint can take a command (R168): its queue, or its release list, has room, and none waits there already. -/
def Dev.unitTakes (d : Dev) (u : Nat) (c : UpdCmd) : Bool :=
  let x := Tab.get {} d.upd u
  decide (x.queue.length < 64) && (c.opc ≠ 4 || decide (x.releases.length < 16)) && d.updSent.all (fun m => m.1 ≠ u) &&
    !d.dyn.any fun g => g.arrived && match g.cargo with | .command u' _ _ => u' = u | _ => false

/-- A flit at the head of its virtual channel's buffer whose time in the router has passed: its router and output. -/
def Dev.headAt (d : Dev) (before : List DynFlit) (f : DynFlit) : Option (Nat × Nat × Nat) :=
  match f.place with
  | none => none
  | some (y, n, _) =>
    if f.entered + 2 * d.latency 11 ≤ d.netPorts.phase && before.all (fun g => g.place ≠ f.place || g.vc ≠ f.vc) then
      some (y, n, d.nextOut y n f.dst)
    else none

/-- Whether what lies behind an output has room for a flit: a buffer of the next router, across a bridge over a lane that is up (R301),
an endpoint, or a unit's queue (R253). -/
def Dev.hasRoom (d : Dev) (f : DynFlit) (out : Nat × Nat × Nat) : Bool :=
  match d.leads out.1 out.2.1 out.2.2 with
  | some (at_, _) => d.laneUp out.1 out.2.1 out.2.2 && decide (d.buffered at_ f.vc < 4)
  | none =>
    match f.cargo with
    | .command u _ c => d.unitTakes u c
    | _ => true

/-- What decides between flits at an output, lowest first (R253): a P2 flit that has headed its channel there for 16 sc, then VC0, VC1,
VC2 (log entry 82), VC3; then the lower input port. -/
def DynFlit.rank (now : Nat) (f : DynFlit) : List Nat :=
  let waited := match f.heads with | some t => decide (t + 32 ≤ now) | none => false
  [if f.vc = 3 && waited then 0 else 1 + f.vc, match f.place with | some (_, _, i) => i | none => 0]

/-- The flits that leave their routers in a phase, each with its output: one for each output that has no reservation (R252, R253). -/
def Dev.moving (d : Dev) (half : Nat) : List (DynFlit × (Nat × Nat × Nat)) :=
  let heads := (List.range d.dyn.length).filterMap fun k =>
    match d.dyn[k]? with
    | some f =>
      match d.headAt (d.dyn.take k) f with
      | some o => if !d.isReserved o.1 o.2.1 o.2.2 half && d.hasRoom f o then some (f, o) else none
      | none => none
    | none => none
  heads.filter fun x => heads.all fun z => z.2 ≠ x.2 || z.1.no = x.1.no || decide (x.1.rank d.netPorts.phase < z.1.rank d.netPorts.phase)

/-- A flit takes an output. Where the table sends it another way than the healthy one, it goes round a failed router (R265, R266). -/
def Dev.moveFlit (d : Dev) (f : DynFlit) (out : Nat × Nat × Nat) : Dev :=
  let (y, n, o) := out
  let round := !f.detour && o < 4 && o ≠ healthyPort (d.flag fNOC_CFG_DIAG [y]) n (tableDest y f.dst)
  let g : DynFlit :=
    match d.leads y n o with
    | some (at_, extra) => { f with place := some at_, entered := d.netPorts.phase + extra, heads := none, detour := f.detour || round }
    | none => { f with place := none, arrived := true, detour := f.detour || round }
  let d1 := { d with dyn := d.dyn.map fun (x : DynFlit) => if x.no = f.no then g else x }
  if round then d1.count .rNOC_DETOUR_FLITS [y] 1 else d1

/-- Flits that head their virtual channel at an output from now on, and those that have come to the head of their source queue. -/
def Dev.markHeads (d : Dev) : Dev :=
  let now := d.netPorts.phase
  { d with dyn := (List.range d.dyn.length).filterMap fun k =>
      (d.dyn[k]?).map fun f =>
        let before := d.dyn.take k
        if f.place.isSome then
          (if f.heads.isNone && (d.headAt before f).isSome then { f with heads := some now } else f)
        else if !f.arrived && f.headed.isNone && before.all (fun g => g.src ≠ f.src || g.vc ≠ f.vc || g.place.isSome || g.arrived) then
          { f with headed := some now }
        else f }

/-- The counter of a flit's class, and its virtual channel (Table 13-3). -/
def classCount (vc : Nat) : RegName := if vc ≤ 1 then .rNOC_P0_FLITS else if vc = 2 then .rNOC_P1_FLITS else .rNOC_P2_FLITS

/-- The flit at the head of a source queue enters its router, if a local port is free in this phase, the buffer has room and, on VC0,
the endpoint's last one left 4 sc ago (R252, R253, R255). VC2 flits wait for the timetable, unless nothing is reserved. -/
def Dev.enterMesh (d : Dev) (half : Nat) (used : List (Nat × Nat × Nat)) (f : DynFlit) : Dev × List (Nat × Nat × Nat) :=
  let (y, c) := f.src
  let paced := f.vc ≠ 0 || (match Tab.find d.netPorts.paced (128 * y + c) with
    | some t => decide (t + 8 ≤ d.netPorts.phase) | none => true)
  match placeOf c with
  | none => (d, used)
  | some (n, p) =>
    match (List.range (portsOf c)).find? fun k =>
        !d.isHanded y n (p + k) half && !used.contains (y, n, p + k) && decide (d.buffered (y, n, p + k) f.vc < 4) with
    | none => (d, used)
    | some k =>
      if !paced || (f.vc = 2 && !d.noReserve) then (d, used)
      else
        let d1 := { d with dyn := d.dyn.map fun (x : DynFlit) =>
          if x.no = f.no then { f with place := some (y, n, p + k), entered := d.netPorts.phase } else x }
        let d2 := if f.vc = 0 then { d1 with netPorts := { d1.netPorts with
            paced := Tab.insert d1.netPorts.paced (128 * y + c) d1.netPorts.phase } } else d1
        (d2.count (classCount f.vc) [y] 1, (y, n, p + k) :: used)

/-- The heads of the source queues of one virtual channel. -/
def Dev.sourceHeads (d : Dev) (vc : Nat) : List DynFlit :=
  d.dyn.filter fun f => f.vc = vc && f.place.isNone && !f.arrived && f.headed.isSome

/-- The oldest VC2 flit that waits at an endpoint for each destination rides a reserved path to it whose local input has no other flit
in this phase (R256). -/
def Dev.ride (d : Dev) (half : Nat) (f : DynFlit) : Dev :=
  let (y, c) := f.src
  match placeOf c with
  | none => d
  | some (n, p) =>
    let nf := { newFlit f.src .nowhere [] with cargo := some f.cargo }
    let path (k : Nat) : Option NetFlit :=
      if d.isHanded y n (p + k) half then none
      else
        match d.trace nf 64 y n (p + k) (2 * d.sched.sc + half) [] with
        | ([g], none) =>
          if g.yard = f.dst.1 && (endpointAt g.router g.port).map (·.1) = some f.dst.2 then some { g with node := k } else none
        | _ => none
    match (List.range (portsOf c)).findSome? path with
    | none => d
    | some g =>
      (({ d with dyn := d.dyn.filter (fun x => x.no ≠ f.no), net := d.net ++ [{ g with node := 0 }] }).markHanded y n (p + g.node) half).count
        .rNOC_P1_FLITS [y] 1

/-- VC2 flits that may ride: of each source and destination the oldest. -/
def Dev.riders (d : Dev) : List DynFlit :=
  (List.range d.dyn.length).filterMap fun k =>
    match d.dyn[k]? with
    | some f =>
      if f.vc = 2 && f.place.isNone && !f.arrived &&
          (d.dyn.take k).all fun g => !(g.vc = 2 && g.src = f.src && g.dst = f.dst && g.place.isNone && !g.arrived) then some f
      else none
    | none => none

/-- One phase of the dynamic classes, in a half of the present sc. -/
def Dev.dynPhase (d : Dev) (half : Nat) : Dev :=
  let step (d : Dev) : Dev := { d with netPorts := { d.netPorts with phase := d.netPorts.phase + 1 } }
  if d.dyn.isEmpty then step d
  else
    let d1 := d.markHeads
    let d2 := if d1.noReserve then d1 else d1.riders.foldl (fun d f => d.ride half f) d1
    let d3 := (d2.moving half).foldl (fun d x => d.moveFlit x.1 x.2) d2
    step (([0, 1, 2, 3].foldl (fun (acc : Dev × List (Nat × Nat × Nat)) vc =>
      (acc.1.sourceHeads vc).foldl (fun acc f => acc.1.enterMesh half acc.2 f) acc) (d3, [])).1)

/-- The network's two phases of one arithmetic period. -/
def Dev.netPeriod (d : Dev) : Dev := (d.dynPhase 0).dynPhase 1

/-! ## Arrival -/

/-- The first flit that has reached its endpoint. -/
def Dev.dynDue (d : Dev) : Option DynFlit := d.dyn.find? (·.arrived)

/-- The latency of an arriving flit is recorded: of a VC0 flit from its sending, of a P2 flit from the head of its source queue (R255,
Table 13-11). -/
def Dev.recordLatency (d : Dev) (f : DynFlit) : Dev :=
  let y := f.dst.1
  let sc (t : Nat) : Nat := (d.netPorts.phase - t) / 2
  if f.vc = 0 then (d.maxF fNOC_LAT_MAX_P0_MAX [y] (sc f.sent)).sample 3 y ((sc f.sent : Nat) : Int)
  else if f.vc = 3 then
    let n := sc (f.headed.getD f.sent)
    (d.maxF fNOC_LAT_MAX_P2_MAX [y] n).sample 4 y ((n : Nat) : Int)
  else d

end Sys2Proof.Machine
end

