-- ==== Sys2Proof/Machine/Links.lean ====
section
/-! DEFINITION. Fabric packets on their way (R271 to R276): headers, framing with the replay buffer, the route table, transit
across yards, and the WRITE packets of a SEND (R247). -/
namespace Sys2Proof.Machine

/-! ## Packets -/

/-- The header of Table 14-3. -/
def packetHeader (type flags dst src units epoch tag addr : Nat) : List Nat :=
  [type, flags] ++ leBytes 2 (dst % 1024) ++ leBytes 2 (src % 1024) ++ [units - 1, 0] ++ leBytes 4 epoch ++ leBytes 4 tag
    ++ leBytes 8 addr ++ List.replicate 8 0

def FabPacket.type (k : FabPacket) : Nat := nth 0 k.header 0
def FabPacket.flags (k : FabPacket) : Nat := nth 0 k.header 1
def FabPacket.get (k : FabPacket) (o n : Nat) : Nat := leNat ((k.header.drop o).take n)
def FabPacket.dst (k : FabPacket) : Nat := k.get 2 2 % 1024
def FabPacket.src (k : FabPacket) : Nat := k.get 4 2 % 1024
def FabPacket.epoch (k : FabPacket) : Nat := k.get 8 4
def FabPacket.tag (k : FabPacket) : Nat := k.get 12 4
def FabPacket.addr (k : FabPacket) : Nat := k.get 16 8
/-- What names a packet's flow beside its source (R276). -/
def FabPacket.flow (k : FabPacket) : Nat := if k.type = 2 then k.tag % 65536 else k.tag
/-- Two packets of one flow (R276). -/
def FabPacket.sameFlow (k e : FabPacket) : Bool := e.type = k.type && e.src = k.src && e.flow = k.flow
def FabPacket.bytes (k : FabPacket) : List Nat := k.header ++ k.payload
def FabPacket.size (k : FabPacket) : Nat := k.header.length + k.payload.length
/-- TIME and RESET packets go before any other frame (R275). -/
def FabPacket.express (k : FabPacket) : Bool := decide (k.type ≥ 3)

/-- This device's ID and epoch (R279). -/
def Dev.devId (d : Dev) : Nat := d.getF fFAB_ID_DEV_ID []
def Dev.epoch (d : Dev) : Nat := d.getF fFAB_ID_EPOCH []

/-! ## Ports -/

def Dev.fport (d : Dev) (p : Nat) : FabPort := Tab.get {} d.fab.ports p
def Dev.setFport (d : Dev) (p : Nat) (x : FabPort) : Dev := { d with fab := { d.fab with ports := Tab.put {} d.fab.ports p x } }

/-- FAB_PORT_STAT.STATE is UP. -/
def Dev.linkUp (d : Dev) (p : Nat) : Bool := d.getF fFAB_PORT_STAT_STATE [p] = 2

/-- Time a frame takes on the line, in 1/9 tc: 522 B at 120.94 GB/s, twice as long on four lanes (R267, R268, Table 14-1). -/
def Dev.frameTime (d : Dev) (p : Nat) : Nat := if d.flag fFAB_PORT_STAT_X4 [p] then 62 else 31

/-- Lanes whose credits this device withholds: L2 while an input of a fabric node is full (R283). -/
def Dev.withheld (d : Dev) : Nat := if d.fab.nodes.any fun n => n.2.inputs.any fun i => decide (i.2.length ≥ 256) then 4 else 0

/-- The last frame received in order (R271). -/
def FabPort.ack (x : FabPort) : Nat := (x.rxSeq + 4095) % 4096

/-! ## Frames -/

/-- A packet has bytes to frame on a lane, among TIME and RESET packets or among the others. -/
def FabPacket.toFrame (lane : Nat) (express : Bool) (k : FabPacket) : Bool :=
  k.express == express && k.lane = lane && decide (k.framed < k.size)

/-- Whose turn it is: TIME and RESET packets, else the next lane in turn that has credits (R275). -/
def FabPort.turn (x : FabPort) : Option (Nat × Bool) :=
  match x.packets.find? fun k => k.express && decide (k.framed < k.size) with
  | some k => some (k.lane, true)
  | none =>
    (([1, 2, 3, 4].map fun i => (x.lane + i) % 4).find? fun l => !bit x.blocked l && x.packets.any (FabPacket.toFrame l false)).map
      fun l => (l, false)

/-- What a frame takes of the packets of its lane, which follow one another without gaps (R274): the parts with their bytes, and the
packets afterwards. -/
def frameParts (lane : Nat) (express : Bool) : Nat → List FabPacket → List (Nat × Nat × List Nat) × List FabPacket
  | _, [] => ([], [])
  | room, k :: ks =>
    if k.toFrame lane express && decide (0 < room) then
      let bs := (k.bytes.drop k.framed).take room
      let (ps, rest) := frameParts lane express (room - bs.length) ks
      ((k.no, k.framed, bs) :: ps, { k with framed := k.framed + bs.length } :: rest)
    else
      let (ps, rest) := frameParts lane express room ks
      (ps, k :: rest)

/-- A port sends its next frame (R268, R271): what no packet fills the spec does not say. -/
def Dev.sendFrame (d : Dev) (p lane : Nat) (express : Bool) : Dev :=
  let x := d.fport p
  let (ps, ks) := frameParts lane express 512 x.packets
  let bs := ps.flatMap (·.2.2)
  let fill := (List.range (512 - bs.length)).map fun i => Config.freeWord (d.nonce + i) % 256
  let f : FabFrame := { seq := x.txSeq, lane := lane, parts := ps.map fun q => (q.1, q.2.1, q.2.2.length), bytes := bs ++ fill }
  let x' := { x with
    txSeq := (x.txSeq + 1) % 4096
    replay := x.replay ++ [f]
    packets := ks.map fun k => if k.framed ≥ k.size then { k with owner := none } else k
    lane := if express then x.lane else lane
    freeAt := max x.freeAt d.sched.ref + d.frameTime p
    timeOut := if ks.any fun k => k.type = 3 && decide (k.framed ≥ k.size) && ps.any fun q => q.1 = k.no then some d.time else x.timeOut }
  (({ d with nonce := d.nonce + fill.length }.setFport p x').emit (.frame p lane f.seq x.ack d.withheld f.bytes)).count
    .rFAB_PCNT [p, 0] 1

/-- A port sends a frame if it is UP, its line is free and its replay buffer of 256 frames has room (R271). -/
def Dev.pushLink (d : Dev) (p : Nat) : Dev :=
  let x := d.fport p
  if !d.linkUp p || decide (d.sched.ref < x.freeAt) || decide (x.replay.length ≥ 256) then d
  else match x.turn with
    | some (lane, express) => d.sendFrame p lane express
    | none => d

/-- Every port has the line for the next frame as its time comes (R268). -/
def Dev.linkPeriod (d : Dev) : Dev := (d.fab.ports.map (·.1)).foldl Dev.pushLink d

/-- Hand a packet to a port's sender: it waits while the port is not UP (R273). -/
def Dev.transmit (d : Dev) (p : Nat) (k : FabPacket) : Dev :=
  let x := d.fport p
  let d1 := d.setFport p { x with packets := x.packets ++ [{ k with no := d.fab.next, framed := 0, acked := 0 }] }
  { d1 with fab := { d1.fab with next := d.fab.next + 1 } }.pushLink p

/-! ## Routing -/

/-- A packet is discarded and counted (R274, R277). -/
def Dev.dropPacket (d : Dev) (p : Nat) : Dev :=
  let d1 := d.count .rFAB_DROP_CNT [] 1
  if d1.flag fFAB_CTL_DROP_EVENT [] then d1.fire 19 p else d1

/-- Ports that the entry of a device lists, from PORT0 upwards (R276). -/
def Dev.routeList (d : Dev) (dev : Nat) : List Nat :=
  if !d.flag fFAB_ROUTE_VALID [dev] then []
  else [d.getF fFAB_ROUTE_PORT0 [dev], d.getF fFAB_ROUTE_PORT1 [dev], d.getF fFAB_ROUTE_PORT2 [dev]].takeWhile (· < 24)

/-- The port a packet takes: where packets of its flow still wait, so that none overtakes another; else the one its flow names, or
the next listed UP port in cyclic order (R276); where none is UP it waits at the first. -/
def Dev.routePick (d : Dev) (ports : List Nat) (k : FabPacket) : Nat :=
  let n := ports.length
  let at_ (i : Nat) : Nat := nth 0 ports ((k.src + k.tag + i) % n)
  match ports.find? fun p => (d.fport p).packets.any k.sameFlow with
  | some p => p
  | none =>
    match (List.range n).find? fun i => d.linkUp (at_ i) with
    | some i => at_ i
    | none => at_ 0

/-- The lane of a packet after a route entry (R276). -/
def laneAfter (vl : Nat) (k : FabPacket) : Nat := if k.type ≠ 1 then k.lane else if vl = 1 then 1 else if vl = 2 then 0 else k.lane

/-- The flits that carry a packet from one endpoint to another on VC3 (R276, R277): the last brings it. -/
def Dev.carry (d : Dev) (src dst : Nat × Nat) (port : Nat) (k : FabPacket) : Dev :=
  ((List.range (k.payload.length / 256 - 1)).foldl (fun d _ => d.sendDyn 3 src dst (.transit port none)) d).sendDyn 3 src dst
    (.transit port (some k))

/-- A packet leaves this device on a port: HOPS counts it (Table 14-3, R274). From another yard it crosses the bridges (R276). -/
def Dev.forward (d : Dev) (yard from_ p : Nat) (k : FabPacket) : Dev :=
  let hops := nth 0 k.header 7 + 1
  if hops ≥ 64 then d.dropPacket p
  else
    let k' := { k with header := k.header.set 7 hops }
    if p / 6 = yard then d.transmit p k' else d.carry (yard, from_) (fabEnd p) p k'

/-- The endpoint of the memory a landing WRITE goes to (R277); none where its address names no memory of the part. -/
def landingEnd (a : Nat) : Option (Nat × Nat) :=
  match locate a with
  | .onchip y sp e off => some (onchipEnd y sp e off)
  | .hbm _ _ | .ddr _ _ => (tierController a).map ctlEnd
  | .window _ _ | .control _ | .nowhere => none

/-- A packet for this device has come to where it lands: WRITE, REDUCE and RESET then act on it. -/
def Dev.hasArrived (d : Dev) (k : FabPacket) : Dev := { d with fab := { d.fab with arrived := d.fab.arrived ++ [k] } }

/-- Route a packet in a yard, at an endpoint of it (R276): it lands here, travelling to its memory on VC3 (R277), is discarded for
want of a route, or leaves. -/
def Dev.route (d : Dev) (yard from_ : Nat) (k : FabPacket) : Dev :=
  if k.dst = d.devId then
    match (if k.type = 1 then landingEnd (k.addr % 2 ^ 48) else none) with
    | some e => d.carry (yard, from_) e 24 k
    | none => d.hasArrived k
  else
    match d.routeList k.dst with
    | [] => d.count .rFAB_NOROUTE_CNT [] 1
    | ports => d.forward yard from_ (d.routePick ports k) { k with lane := laneAfter (d.getF fFAB_ROUTE_VL [k.dst]) k }

/-! ## SEND -/

/-- Cut bytes at 4 KiB boundaries of their destination addresses (R274). -/
def packetCuts (addr : Nat) (bs : List Nat) : Nat → List (Nat × List Nat)
  | 0 => []
  | n + 1 =>
    if bs.isEmpty then []
    else
      let m := min bs.length (4096 - addr % 4096)
      (addr, bs.take m) :: packetCuts (addr + m) (bs.drop m) n

/-- A packet's payload in units of 256 bytes; what fills up the last unit the spec does not say. -/
def Dev.units (d : Dev) (bs : List Nat) : List Nat :=
  bs ++ (List.range ((256 - bs.length % 256) % 256)).map fun i => Config.freeWord (d.nonce + i) % 256

/-- The WRITE packets of a chunk that a SEND writes at an address of another device (R247, R274), from the fabric port that its bytes
have come to. `owner` is its engine, context and chunk. -/
def Dev.sendWrite (d : Dev) (owner : Nat × Nat × Nat) (port dev tag addr : Nat) (bs : List Nat) : Dev :=
  (packetCuts addr bs (bs.length / 4096 + 2)).foldl (fun d c =>
    let payload := d.units c.2
    let h := packetHeader 1 0 dev d.devId (payload.length / 256) d.epoch tag c.1
    { d with nonce := d.nonce + 256 }.route (port / 6) (56 + port % 6)
      { lane := 0, header := h, payload := payload, owner := some owner }) d

/-- Packets of a SEND, of one chunk or of all, that no port has framed whole (R247). -/
def Dev.unsent (d : Dev) (xn no : Nat) (chunk : Option Nat) : Bool :=
  let mine (k : FabPacket) : Bool :=
    match k.owner with
    | some (x, c, n) => x = xn && c = no && (match chunk with | some m => n = m | none => true)
    | none => false
  (d.fab.ports.any fun p => p.2.packets.any mine) ||
    d.dyn.any fun f => match f.cargo with | .transit _ (some k) => mine k | _ => false

/-- The fabric port that the bytes of a SEND go to, as its route stands (R276); without a route, that of its own yard. -/
def Dev.sendPort (d : Dev) (y dev tag : Nat) : Nat :=
  match d.routeList dev with
  | [] => 6 * y
  | ports => d.routePick ports { lane := 0, header := packetHeader 1 0 dev d.devId 1 0 tag 0, payload := [] }

end Sys2Proof.Machine
end

