-- ==== Sys2Proof/Machine/Descs.lean ====
section
/-! DEFINITION. Descriptors of the transfer engines: their fields and checks at XSTART (R231 to R233, R236 to R238, R247, R248), the
places they take (R234), receives (R248). -/
namespace Sys2Proof.Machine

/-! ## Descriptors -/

/-- Signed 48-bit number. -/
def s48 (n : Nat) : Int := signed 48 n

/-- Fields of the INJECT extension (Tables 5-2, 12-3) from its 64 bytes. -/
def parseInj (b : List Nat) : InjExt :=
  let f o n := leNat ((b.drop o).take n)
  { stop := f 0 1, ccw := f 1 1 = 1, interval := f 2 1, laps := f 3 1, fmt := f 4 1, scaled := f 5 1 = 1,
    kb := f 6 1, lb := f 7 1, g := f 8 2, lane0 := f 10 2, region := f 12 2, gen := f 14 2, first := f 16 8,
    flits := f 24 2, edge := f 28 4, odd := decide (f 1 1 > 1) || decide (f 5 1 > 1), snoop := (List.range 16).map fun l => f (32 + 2 * l) 2 }

/-- A descriptor from its bytes (Table 12-1). -/
def parseDesc (b : List Nat) : Desc :=
  let f o n := leNat ((b.drop o).take n)
  { kind := f 0 1, prio := f 1 1 % 2 = 1, dev := f 2 2, len := f 4 4, src := f 8 6, dst := f 16 6,
    counts := (List.range 5).map fun i => f (0x18 + 4 * i) 4 + 1,
    sstr := (List.range 5).map fun i => s48 (f (0x2C + 6 * i) 6),
    dstr := (List.range 5).map fun i => s48 (f (0x4A + 6 * i) 6),
    tag := f 0x68 4, p := f 0x6C 1, tdim := f 0x6D 1, anchor := f 0x6E 2, fixlat := f 0x70 4, cperiod := f 0x74 4,
    tperiod := f 0x78 4, inj := parseInj (b.drop 0x80) }

/-- Number of chunks, and of chunks of one tile (R233, R236). -/
def Desc.chunks (c : Desc) : Nat := c.counts.foldl (· * ·) 1
def Desc.tileChunks (c : Desc) : Nat := if c.kind = 1 then (c.counts.take c.tdim).foldl (· * ·) 1 else c.chunks
def Desc.tiles (c : Desc) : Nat := if c.kind = 1 then (c.counts.drop c.tdim).foldl (· * ·) 1 else 1

/-- Coordinates of chunk `n`, the first dimension fastest (R233). -/
def Desc.coords (c : Desc) (n : Nat) : List Nat :=
  (c.counts.foldl (fun (acc : List Nat × Nat) k => (acc.1 ++ [acc.2 % k], acc.2 / k)) ([], n)).1

/-- Sum of coordinates times strides. -/
def dotStride (i : List Nat) (s : List Int) : Int := (List.zipWith (fun (a : Nat) (b : Int) => (a : Int) * b) i s).foldl (· + ·) 0

/-- Chunk length at the source: an INJECT chunk with sideband holds 64 bytes more (R235). -/
def Desc.srcLen (c : Desc) : Nat := if c.kind = 2 ∧ c.inj.scaled then c.len + 64 else c.len

/-- Source address of chunk `n` (R233). -/
def Desc.srcOf (c : Desc) (n : Nat) : Nat := wrap 48 ((c.src : Int) + dotStride (c.coords n) c.sstr)

/-- Destination address of chunk `n` (R233, R236). -/
def Desc.dstOf (c : Desc) (n : Nat) : Nat :=
  let i := c.coords n
  if c.kind = 1 then
    let t := n / c.tileChunks
    wrap 48 ((c.dst : Int) + ((t % (c.p + 1) : Nat) : Int) * nth 0 c.dstr c.tdim
      + dotStride (i.take c.tdim) (c.dstr.take c.tdim))
  else wrap 48 ((c.dst : Int) + dotStride i c.dstr)

/-- Whether a descriptor of the kind reads memory at SRC, and writes memory of this device at DST (Table 12-2). -/
def Desc.hasSrc (c : Desc) : Bool := c.kind ≠ 4
def Desc.hasDst (c : Desc) : Bool := c.kind = 0 ∨ c.kind = 1

/-- The hold cause of Table 2-2 of an endpoint. -/
def tierCause (a : Nat) : Nat :=
  match locate a with
  | .hbm _ _ => 1
  | .ddr _ _ => 2
  | .window _ _ => 4
  | .onchip _ _ _ _ | .control _ | .nowhere => 0

/-- The hold cause of a late item of a descriptor: its host window, else its DDR5, else its HBM4 endpoint; a receive's is
FABRIC (Table 2-2). 0: the descriptor is fixed-latency (Table 12-2). -/
def Desc.cause (c : Desc) : Nat :=
  if c.kind = 4 then 3
  else if c.kind = 2 then 1
  else
    let a := tierCause c.src
    let b := if c.hasDst then tierCause c.dst else 0
    if a = 4 ∨ b = 4 then 4 else if a = 2 ∨ b = 2 then 2 else max a b

/-! ## Checks at XSTART -/

/-- One end of a chunk: populated (or in a window that takes it), in allocated stalls, not the drain queue (R198, R233). -/
def Dev.endpointOk (d : Dev) (a len : Nat) : Bool :=
  match locate a with
  | .onchip y space e off =>
    d.populated a len && space ≠ 4 && d.rangeAllocated y space e (plainOff space off) len
  | .hbm _ _ | .ddr _ _ => d.populated a len
  | .window w off => off + len ≤ 0x400000000 && (!d.windowValid w || off + len ≤ d.windowLen w)
  | .control _ | .nowhere => false

/-- The alignments of Table 12-1 that R233 checks: a RECV ignores its addresses and strides (R248), an INJECT descriptor ignores DST
(R235), a GRAD's DST is a unit number, a STREAM ignores the strides beyond its tiles' (R236). -/
def Desc.aligned (c : Desc) : Bool :=
  c.len % 64 = 0 && (c.kind = 4 ||
    (c.src % 64 = 0 && (!c.hasDst && c.kind ≠ 3 || c.dst % 64 = 0) &&
      (List.range 5).all fun i =>
        nth 0 c.counts i ≤ 1 ||
          ((nth 0 c.sstr i) % 64 = 0 && ((c.kind = 1 && decide (c.tdim < i)) || (nth 0 c.dstr i) % 64 = 0))))

/-- The first flit of an INJECT descriptor whose source fails: DETAIL 2 outside the stop's own stack, DETAIL 1 where that stack has
nothing there (R106, R233). -/
def Dev.injectFault (d : Dev) (y : Nat) (c : Desc) : Option (Nat × Nat) :=
  (List.range c.chunks).findSome? fun n =>
    let a := c.srcOf n
    match locate a with
    | .hbm s off =>
      if s ≠ 3 * y + c.inj.stop ∨ off / 2 ^ 30 ≠ (off + c.srcLen - 1) / 2 ^ 30 then some (2, a)
      else if !d.populated a c.srcLen then some (1, a) else none
    | _ => some (if d.populated a c.srcLen then 2 else 1, a)

/-- A chunk's destination overlaps a chunk's source (R233). -/
def Dev.clashes (d : Dev) (c : Desc) : Bool :=
  c.hasDst && (List.range c.chunks).any fun i =>
    let s := d.memKey (c.srcOf i)
    (List.range c.chunks).any fun j =>
      let t := d.memKey (c.dstOf j)
      decide (s < t + c.len) && decide (t < s + c.len)

/-- The fields of the INJECT extension lie in the ranges of Table 5-2, and the flits are the chunks (R106, R235). A turned lap
needs KB of 16 or more and a payload without block scales (R108). SCALED with a format that has no block scales (FP32, BF16, FP16: R62)
passes here, where the spec refuses it only at load: its flits carry scale bytes, which no step of such a format uses (DESIGN CHOICE;
log entry 88). -/
def Desc.injectFields (c : Desc) : Bool :=
  let j := c.inj
  j.stop ≤ 2 && 1 ≤ j.interval && j.interval ≤ 84 && 1 ≤ j.flits && j.flits ≤ 512 && j.fmt ≤ 7 &&
    !j.odd && [4, 8, 16, 32, 64].contains j.kb && [16, 32, 64].contains j.lb && 1 ≤ j.g && j.g ≤ 256 && j.lane0 ≤ 4095 &&
    1 ≤ j.laps && j.laps ≤ 16 && j.kb * j.lb * fmtBits j.fmt ≤ 8192 && c.chunks = j.flits &&
    (List.range j.laps).all fun l => !bit j.edge (2 * l + 1) || (16 ≤ j.kb && !j.scaled)

/-- Every field lies in the range its table states (R231, R232, Tables 12-1 and 12-2); what R233 checks is apart. -/
def Desc.inRange (c : Desc) : Bool :=
  let onchip := match locate c.src with
    | .onchip _ _ _ _ => true
    | .hbm _ _ | .ddr _ _ | .window _ _ | .control _ | .nowhere => false
  64 ≤ c.len && c.len ≤ 1048576 &&
    (c.kind ≠ 0 || !(tierCause c.src = 4 && tierCause c.dst = 4)) &&
    (c.kind ≠ 1 || (c.tdim ≤ 4 && !onchip)) && (c.kind ≠ 2 || c.injectFields) &&
    (c.kind ≠ 5 || (c.dst % 32 < 20 && tierCause c.src ≠ 4)) &&
    (!(c.kind = 0 || c.kind = 3) || c.cause ≠ 0 || 1 ≤ c.cperiod)

/-! ## Generation tags -/

/-- The tag state of a region, if the loaded image defines it (R134, R176). -/
def Dev.region (d : Dev) (r : Nat) : Option RegionRec := d.sched.image.bind fun im => im.regions.find? fun g => g.region = r
def Dev.tag (d : Dev) (r : Nat) : TagState := Tab.get {} d.tags r

/-- The slot that holds the version a descriptor expects, if a readable version has its tag (R111, R136 to R138). -/
def Dev.tagSlot (d : Dev) (r gen : Nat) : Option Nat :=
  match d.region r with
  | none => none
  | some g =>
    let t := d.tag r
    if !g.stashed && t.pendingValid then none
    else if gen = t.cur then some t.slot
    else if t.stashValid && gen = t.stash then some (1 - t.slot)
    else none

/-- What slot 1 adds to the source addresses of a descriptor (R134). -/
def Dev.slotOffset (d : Dev) (r slot : Nat) : Nat :=
  if slot = 0 then 0 else match d.region r with | some g => g.slotOff | none => 0

/-- A PREFETCH record (R238). -/
def prefetchField (r : List Nat) (o n : Nat) : Nat := leNat ((r.drop o).take n)

/-- A STREAM agrees with the record that TAG names (R238). -/
def Dev.streamOk (d : Dev) (y k : Nat) (c : Desc) : Bool :=
  match d.sched.image with
  | none => false
  | some im =>
    match im.prefetch[c.tag]? with
    | none => false
    | some r =>
      let f := prefetchField r
      match im.buffers.find? (fun b => b.id = f 4 4) with
      | none => false
      | some b =>
        let base := onchipAddr y b.space (if b.space = 0 then 0 else b.eng) b.off
        f 0 1 = y && f 1 1 = k && f 2 1 = c.p && nth 0 c.dstr c.tdim = (f 12 4 : Nat) &&
          c.len * c.tileChunks = f 8 4 && c.tperiod = f 16 4 &&
          base ≤ c.dst && c.dst + (c.p + 1) * f 12 4 ≤ base + b.len

/-- The loaded image uses the fabric (R247). -/
def Dev.multi (d : Dev) : Bool :=
  match d.sched.image with
  | some im => im.multi
  | none => false

/-- Kinds of bounds failure at XSTART: none, the descriptor (DETAIL 1), the injection source (DETAIL 2), with an address. -/
def Dev.descFault (d : Dev) (y k : Nat) (c : Desc) : Option (Nat × Nat) :=
  if !c.aligned then some (1, c.src)
  else if c.kind = 4 then
    let anchors := match d.sched.image with | some im => im.anchors.length | none => 0
    if (c.anchor ≠ 0xFFFF ∧ c.anchor ≥ anchors) ∨ !d.multi then some (1, c.src) else none
  else if c.kind = 3 ∧ (c.dev > 1023 ∨ c.dev = d.getF fFAB_ID_DEV_ID [] ∨ !d.multi ∨ c.tag ≥ 0x80000000) then some (1, c.dst)
  else if c.kind = 2 then
    d.injectFault y c
  else if c.kind = 1 ∧ !d.streamOk y k c then some (1, c.dst)
  else
    match (List.range c.chunks).find? fun n => !d.endpointOk (c.srcOf n) c.len with
    | some n => some (1, c.srcOf n)
    | none =>
      if c.hasDst then
        match (List.range c.chunks).find? fun n => !d.endpointOk (c.dstOf n) c.len with
        | some n => some (1, c.dstOf n)
        | none => none
      else none

/-! ## Engine state -/

/-- Lowest free context number (R234). -/
def freeNo (used : List Nat) (n : Nat) : Nat := ((List.range n).find? fun i => !used.contains i).getD 0

/-- Bytes of the fields that say "undefined under R3": a free choice of a fault or of nothing. -/
def Dev.undefined (d : Dev) (f : FaultInfo) (addr : Nat) : Dev :=
  let d1 := { d with nonce := d.nonce + 1 }
  if Config.freeBool d.nonce then d1.boundsFault f addr else d1

/-- The tiles of a descriptor that are issued at XSTART (R237): all of it, or tiles 0 to P of a stream. -/
def Desc.firstTiles (c : Desc) : Nat := if c.kind = 1 then min (c.p + 1) c.tiles else 1

/-- Take entries for tiles `t` to `t + n - 1` of a stream, or for the whole descriptor, up to one that finds none (R30). -/
def Dev.takeTiles (d : Dev) (y : Nat) (c : Desc) (due : Nat) (anchor : Option Nat) (kind pos unit : Nat) :
    Nat → Nat → List XTile → List XTile × Dev
  | _, 0, acc => (acc, d)
  | t, n + 1, acc =>
    let (item, d1) := d.takeEntry y (due + t * c.tperiod) c.cause anchor kind pos unit
    match item with
    | none => (acc, d1)
    | some i => d1.takeTiles y c due anchor kind pos unit (t + 1) n (acc ++ [⟨t, i, 0, false⟩])

/-- A descriptor is discarded for want of a place (R234). -/
def Dev.loseDesc (d : Dev) (xn : Nat) : Dev :=
  let d1 := (d.setF fXFR_STAT_LOST [xn] 1).count .rXFR_LOST_CNT [xn] 1
  if d1.flag fXFR_CTL_LOST_EVENT [] then d1.fire 14 xn else d1

/-- The head of the waiting list takes a freed context (R234). -/
def Dev.takeContext (d : Dev) (xn : Nat) : Dev :=
  let x := d.x xn
  match x.waiting with
  | [] => d
  | c :: rest =>
    if x.ctxs.length < 16 then
      d.setX xn { x with waiting := rest, ctxs := x.ctxs ++ [{ c with no := freeNo (x.ctxs.map (·.no)) 16 }] }
    else d

/-- Key of the byte count of a (device, tag) pair (R248). -/
def landedKey (dev tag : Nat) : Nat := dev * 2 ^ 32 + tag

/-- The open RECVs, as (engine, whether it holds a context, descriptor). -/
def Dev.receives (d : Dev) : List (Nat × Bool × XCtx) :=
  (List.range 32).flatMap fun xn =>
    (((d.x xn).ctxs.filter fun c => c.desc.kind = 4).map fun c => (xn, true, c)) ++
      ((d.x xn).waiting.filter fun c => c.desc.kind = 4).map fun c => (xn, false, c)

/-- The oldest open RECV of each (device, tag) completes once as many bytes have landed as it expects; bytes beyond them belong
to the next, which may be one that has just taken the freed context (R248). -/
def Dev.settleRecv (d : Dev) : Nat → Dev
  | 0 => d
  | fuel + 1 =>
    let rs := d.receives
    let need (c : XCtx) : Nat := c.desc.len * c.desc.chunks
    let key (c : XCtx) : Nat := landedKey c.desc.dev c.desc.tag
    let hit := rs.find? fun r => r.2.1 && decide (Tab.get 0 d.landed (key r.2.2) ≥ need r.2.2) &&
      rs.all fun o => key o.2.2 ≠ key r.2.2 || decide (r.2.2.issue ≤ o.2.2.issue)
    match hit with
    | none => d
    | some (xn, _, c) =>
      let d1 := { d with landed := Tab.put 0 d.landed (key c) (Tab.get 0 d.landed (key c) - need c) }
      let d2 := c.tiles.foldl (fun d t => d.report t.item) d1
      let x := d2.x xn
      (((d2.setX xn { x with ctxs := x.ctxs.filter fun k => k.no ≠ c.no }).count .rXFR_DESCS [xn] 1).takeContext
        xn).settleRecv fuel

/-- A RECV that has taken a context: what it expects may have landed before (R248). -/
def Dev.settle (d : Dev) (c : Desc) : Dev := if c.kind = 4 then d.settleRecv 2048 else d

/-- CONTEXT_GRANT: the head of the waiting list takes a freed context (R234). -/
def Dev.grantContext (d : Dev) (xn : Nat) : Dev :=
  match (d.x xn).waiting with
  | [] => d
  | c :: _ => (d.takeContext xn).settle c.desc

/-- Start a descriptor on engine X`k` of yard `y` (R186, R232 to R234, R247, R248); `pos` and `unit` are the issuing S engine's
position and number. A stream of whose first tiles one finds no entry starts with those before it, and the S engine stops
(R30, R38). A third descriptor that is open at a ring and stop, which the spec leaves unchecked (R3, R110), has a buffer of its own
(DESIGN CHOICE; log entry 88). -/
def Dev.startDesc (d : Dev) (y k pos unit : Nat) (c : Desc) (dueDist : Nat) : Dev :=
  let xn := 8 * y + k
  let sc := d.sched.sc
  let f : FaultInfo := { code := 9, detail := 1, yard := y, kind := 3, pos := k, unit := xn, stops := some (xUnit xn) }
  if c.kind > 5 then d.undefined f c.src
  else
    match d.descFault y k c with
    | some (detail, a) => d.boundsFault { f with detail := detail } a
    | none =>
      if !c.inRange then d.undefined f c.src
      else
      let x := d.x xn
      let c := { c with clash := d.clashes c }
      if c.cause = 0 then
        if x.fixed.length ≥ 8 then ((d.loseDesc xn).violation 5 y 3 (4 * y + k / 2)).stopUnit (xUnit xn)
        else
          let no := freeNo (x.fixed.map (·.no)) 8
          let d1 := d.setX xn { x with fixed := x.fixed ++ [{ no := no, desc := c, issue := sc }] }
          if c.kind = 5 then d1 else d1.busyUntil (sc + c.fixlat + (c.chunks - 1) * c.cperiod)
      else
        let anchor := if c.kind = 4 ∧ c.anchor ≠ 0xFFFF then some c.anchor else none
        let due :=
          match anchor, d.sched.image with
          | some a, some im => (nth (0, 0) im.anchors a).1
          | _, _ => if c.kind = 2 then c.inj.first else sc + dueDist
        let (tiles, d1) := d.takeTiles y c due anchor 2 pos unit 0 c.firstTiles []
        if tiles.isEmpty then d1
        else
          let d2 := if c.kind = 1 then d1.busyUntil (due + (c.tiles - 1) * c.tperiod) else d1
          let openBuffer (d : Dev) : Dev :=
            if c.kind = 2 then
              { d with inject := d.inject ++ [{ yard := y, desc := c, item := (tiles.map (·.item)).headD 0, bytes := [], next := 0 }] }
            else d
          let x := d2.x xn
          let ctx (no : Nat) : XCtx :=
            { no := no, desc := c, issue := sc, due := due, limit := tiles.length * c.tileChunks, tiles := tiles,
              full := decide (tiles.length < c.firstTiles) }
          if x.ctxs.length < 16 ∧ x.waiting.isEmpty then
            (openBuffer (d2.setX xn { x with ctxs := x.ctxs ++ [ctx (freeNo (x.ctxs.map (·.no)) 16)] })).settle c
          else if x.waiting.length < 48 then openBuffer (d2.setX xn { x with waiting := x.waiting ++ [ctx 0] })
          else d2.loseDesc xn

/-- Bytes of a tag land in memory (R248). -/
def Dev.landBytes (d : Dev) (dev tag n : Nat) : Dev :=
  let k := landedKey dev tag
  { d with landed := Tab.put 0 d.landed k (Tab.get 0 d.landed k + n) }.settleRecv 2048

end Sys2Proof.Machine
end

