-- ==== Sys2Proof/Machine/Transfers.lean ====
section
/-! DEFINITION. What the transfer engines do: requests on their way through the network and at the controllers (R220, R221, R234, R239),
host windows and address translation (R241 to R244), host window faults and their resumption (R245, R246), stream tiles (R237),
fixed-latency chunks (R235, R257), gradient deliveries (R170). -/
namespace Sys2Proof.Machine

/-! ## Pieces -/

/-- How many bytes one request may cover at an address (R220, R234, R243). -/
def pieceAt (d : Dev) (a : Nat) (write : Bool) : Nat :=
  match locate a with
  | .hbm _ _ | .ddr _ _ => 1024 - a % 1024
  | .window w off =>
    let h := (d.word .rXFR_WIN_BASE [w]).toNat + off
    if write then min (d.port (windowPort w)).cfg.mps (4096 - h % 4096) else min 512 (4096 - h % 4096)
  | .onchip _ _ _ _ | .control _ | .nowhere => 256 - a % 256

/-- Length of the next request of a descriptor at a chunk and byte: the tier or host side sets it, otherwise one flit. -/
def Dev.pieceLen (d : Dev) (c : Desc) (chunk off : Nat) : Nat :=
  let left := c.srcLen - off
  let s := c.srcOf chunk + off
  let t := c.dstOf chunk + off
  let ps := pieceAt d s false
  let pt := if c.hasDst then pieceAt d t true else ps
  let tierS := tierCause s ≠ 0
  let tierT := c.hasDst && tierCause t ≠ 0
  let n := if tierS && tierT then min ps pt else if tierS then ps else if tierT then pt else ps
  max 1 (min left n)

/-- The window a descriptor's piece goes through, if any: window, byte offset, whether it is written. -/
def Desc.windowOf (c : Desc) (chunk off : Nat) : Option (Nat × Nat × Bool) :=
  match locate (c.srcOf chunk + off) with
  | .window w o => some (w, o, false)
  | _ =>
    if c.hasDst then
      match locate (c.dstOf chunk + off) with
      | .window w o => some (w, o, true)
      | _ => none
    else none

/-- A port is down: its domain off or in reset, or its link down (R245). -/
def Dev.portDown (d : Dev) (p : Port) : Bool :=
  let x := d.port p
  !x.link || x.perst || !bit (d.word .rCLK_PD_STAT []).toNat (match p with | .ha => 32 | .hb => 33)

def Dev.ats (d : Dev) : Port → Ats
  | .ha => d.atsA
  | .hb => d.atsB
def Dev.setAts (d : Dev) (p : Port) (a : Ats) : Dev :=
  match p with
  | .ha => { d with atsA := a }
  | .hb => { d with atsB := a }

/-- Stop a descriptor as a host window fault (R245): PORT_DOWN takes precedence, with its window and no host address (Table 12-11),
and the lowest failed chunk counts. -/
def XCtx.fail (c : XCtx) (cause window chunk haddr : Nat) : XCtx :=
  match c.stop with
  | none => { c with stop := some ⟨cause, window, chunk, haddr, false⟩, wait := none }
  | some s =>
    if cause = 6 then { c with stop := some { s with cause := 6, window := window, haddr := 0, chunk := min s.chunk chunk } }
    else { c with stop := some { s with chunk := min s.chunk chunk } }

/-- A cached translation covers a page. -/
def AtsEntry.covers (e : AtsEntry) (g : Nat) : Bool := decide (e.page ≤ g) && decide (g < e.page + e.span)

/-- What a request meets at its window when it is issued (R241, R244, R245). -/
inductive WindowCheck where
  | go (page : Option Nat)
  | wait
  | translate (page : Nat)
  | fail (cause haddr : Nat)
  deriving DecidableEq, Repr

def Dev.windowCheck (d : Dev) (w off len : Nat) (write : Bool) : WindowCheck :=
  let p := windowPort w
  let h := ((d.word .rXFR_WIN_BASE [w]).toNat + off) % 2 ^ 64
  if d.portDown p then .fail 6 0
  else if !d.windowValid w || off + len > d.windowLen w then .fail 4 0
  else if !(if write then d.flag fXFR_WIN_CFG_WRITE [w] else d.flag fXFR_WIN_CFG_READ [w]) then .fail 3 h
  else if !(d.port p).cfg.bme then .wait
  else if d.flag fXFR_WIN_CFG_AT [w] then
    match (d.ats p).cache.find? fun e => e.covers (h / 4096) with
    | some e => if if write then e.write else e.read then .go (some (h / 4096)) else .translate (h / 4096)
    | none => .translate (h / 4096)
  else .go none

/-! ## Where requests go -/

/-- Endpoint of a transfer engine. -/
def xEnd (xn : Nat) : Nat × Nat := (xn / 8, 32 + xn % 8)

/-- A transfer engine issues work: it has not stopped (R38), and it is not fenced (R264). -/
def Dev.xWorks (d : Dev) (xn : Nat) : Bool := !d.isStopped (xUnit xn) && !d.cmdFenced (xn / 8) 3 (xn % 8)

/-- Endpoint of a byte of memory; a host window is reached through the engine. -/
def placeEnd (xn a : Nat) : Nat × Nat :=
  match locate a with
  | .onchip y sp e off => onchipEnd y sp e off
  | .hbm _ _ | .ddr _ _ => match tierController a with | some u => ctlEnd u | none => xEnd xn
  | .window _ _ | .control _ | .nowhere => xEnd xn

/-- Where the data of a request go (Table 12-2). -/
def Dev.destEnd (d : Dev) (xn : Nat) (c : Desc) (r : XReq) : Nat × Nat :=
  if c.kind = 3 then fabEnd (d.sendPort (xn / 8) c.dev c.tag)
  else if c.kind = 5 then ctlEnd (c.dst % 32)
  else placeEnd xn (c.dstOf r.chunk + r.off)

/-- Offsets and lengths of the pieces of `n` bytes from an address on, each within one aligned block of a size. -/
def blockCuts (size a n : Nat) : List (Nat × Nat) :=
  (List.range ((a + n + size - 1) / size - a / size)).map fun i =>
    let lo := max a ((a / size + i) * size)
    (lo - a, min (a + n) ((a / size + i + 1) * size) - lo)

/-- The flits that move bytes (R204, R234). -/
def flitCuts (a n : Nat) : List (Nat × Nat) := blockCuts 256 a n

/-- The virtual channel of a descriptor's data (Table 13-3). -/
def Desc.vc (c : Desc) : Nat := if c.prio then 3 else 2

/-- Send a request's data to their destination, in flits that an on-chip end takes whole. -/
def Dev.sendData (d : Dev) (xn : Nat) (c : Desc) (r : XReq) (src : Nat × Nat) (bs : List Nat) : Dev :=
  let at_ := if c.hasDst && tierCause (c.dstOf r.chunk + r.off) = 0 then c.dstOf r.chunk + r.off else c.srcOf r.chunk + r.off
  (flitCuts at_ bs.length).foldl (fun d f =>
    d.sendDyn c.vc src (d.destEnd xn c r) (.data xn r.id f.1 ((bs.drop f.1).take f.2))) d

/-- Replace a request of an engine, or take it away. -/
def Dev.setReq (d : Dev) (xn id : Nat) (f : XReq → XReq) : Dev :=
  let x := d.x xn
  d.setX xn { x with reqs := x.reqs.map fun r => if r.id = id then f r else r }
def Dev.dropReq (d : Dev) (xn id : Nat) : Dev :=
  let x := d.x xn
  d.setX xn { x with reqs := x.reqs.filter fun r => r.id ≠ id }

/-- Invalidations whose requests have all completed complete (R244). -/
def Dev.finishInvalidations (d : Dev) (p : Port) : Dev :=
  let a := d.ats p
  let open_ (id : Nat) : Bool := d.xfer.any fun e => e.2.reqs.any fun r => r.id = id
  let done := a.invalidating.filter fun g => !g.2.any open_
  done.foldl (fun d g => d.emit (.ats p 2 g.1)) (d.setAts p { a with invalidating := a.invalidating.filter fun g => g.2.any open_ })

/-- The request has completed, or failed: it is outstanding no more. -/
def Dev.endReq (d : Dev) (xn : Nat) (r : XReq) : Dev :=
  let d1 := d.dropReq xn r.id
  match r.page with
  | some (p, _) => d1.finishInvalidations p
  | none => d1

/-- A request completes (R220, R235): its bytes are counted; those of a SEND or a GRAD are done only once accepted (R170, R247). -/
def Dev.finishReq (d : Dev) (xn : Nat) (c : XCtx) (r : XReq) : Dev :=
  let d1 := (d.endReq xn r).count .rXFR_BYTES [xn] r.len
  if c.desc.kind = 5 then d1 else d1.tileBytes xn c.no (r.chunk / c.desc.tileChunks) r.len

/-! ## Issue -/

/-- The slot an INJECT descriptor's flits are read from now, and what it adds to an address (R111, R134). -/
def Dev.readSlot (d : Dev) (c : Desc) : Nat := if c.kind = 2 then (d.tagSlot c.inj.region c.inj.gen).getD 0 else 0
def Dev.readAdd (d : Dev) (c : Desc) : Nat := if c.kind = 2 then d.slotOffset c.inj.region (d.readSlot c) else 0

/-- The fault of an access of a transfer engine (R353). -/
def xferFault (xn : Nat) : FaultInfo :=
  { code := 9, detail := 1, yard := xn / 8, kind := 3, pos := xn % 8, unit := xn, stops := some (xUnit xn) }

/-- Present an access of the network's port of an on-chip memory to its banks (R203, R204): a prio of 1 is P1, 2 is P2. -/
def Dev.netAccess (d : Dev) (a n prio : Nat) (write keep : Bool) : Nat × Dev :=
  match locate a with
  | .onchip y sp e off =>
    d.present y sp e write (netPort (onchipEnd y sp e off).2) prio keep (rowsOf sp (addrRange off n))
  | .hbm _ _ | .ddr _ _ | .window _ _ | .control _ | .nowhere => (0, d)
def Desc.netPrio (c : Desc) : Nat := if c.prio then 2 else 1

/-- The due cycle a request carries as its deadline (R239). -/
def XCtx.deadline (c : XCtx) : Nat := if c.desc.kind = 1 then c.due + c.chunk / c.desc.tileChunks * c.desc.tperiod else c.due

/-- Bytes of a GRAD descriptor that a unit's port holds, or that are on their way to it (R170; log entry 91). -/
def Dev.gradComing (d : Dev) (u : Nat) : Nat :=
  (Tab.get [] d.gradPort u).length +
    (d.dyn.map fun f => match f.cargo with | .grad _ _ u' bs => if u' = u then bs.length else 0 | _ => 0).foldl (· + ·) 0 +
    (d.net.map fun f => match f.cargo with | some (.grad _ _ u' bs) => if u' = u then bs.length else 0 | _ => 0).foldl (· + ·) 0 +
    (d.xfer.map fun e =>
      ((e.2.ctxs.filter fun c => c.desc.kind = 5 && c.desc.dst % 32 = u).map fun c =>
        (c.outbox.map fun o => o.2.2.length).foldl (· + ·) 0 +
          ((e.2.reqs.filter fun r => r.ctx = c.no).map (·.len)).foldl (· + ·) 0).foldl (· + ·) 0).foldl (· + ·) 0

/-- The tags of a port's PCIe requests are as wide as the host has enabled (R243). -/
def PcieCfg.tagBits (c : PcieCfg) : Nat := if c.tag14 then 14 else if c.tag10 then 10 else 8

/-- A PCIe request of a window (R243). -/
def Dev.sendPcie (d : Dev) (w : Nat) (write : Bool) (haddr len : Nat) (translated : Bool) : Dev :=
  d.emit (.pcie (windowPort w) write haddr len translated (d.flag fXFR_WIN_CFG_RO [w]) (d.flag fXFR_WIN_CFG_NS [w])
    (d.port (windowPort w)).cfg.tagBits)

/-- A request sets out from its source: a flit on VC0 asks the controller of a memory tier for it, the injection stop presents its own
(R106, R239); a host window is asked by PCIe; an on-chip source is read at once. A write to a memory tier asks its controller too
(Table 13-3). -/
def Dev.launch (d : Dev) (xn : Nat) (c : XCtx) (r : XReq) (translated : Bool) (ecc : Ecc) : Dev :=
  let s := c.desc.srcOf r.chunk + r.off
  let t := c.desc.dstOf r.chunk + r.off
  let put (d : Dev) (r : XReq) : Dev := d.setX xn { d.x xn with reqs := (d.x xn).reqs ++ [r] }
  let asks := c.desc.hasDst && (tierController t).isSome
  let d1 :=
    match locate s with
    | .hbm _ _ | .ddr _ _ =>
      if c.desc.kind = 2 then put d { r with stage := .reading }
      else (put d { r with stage := .asked, asking := asks }).sendDyn 0 (xEnd xn) (placeEnd xn s) (.request xn r.id)
    | .window w _ => (put d { r with stage := .reading, asking := asks }).sendPcie w false r.haddr r.len translated
    | .onchip _ _ _ _ | .control _ | .nowhere =>
      let d1 := ((flitCuts s r.len).foldl (fun d f => (d.netAccess (s + f.1) f.2 c.desc.netPrio false false).2) d).strike ecc s
      let (bs, d2) := d1.load (xferFault xn) s r.len
      (put d2 { r with stage := .moving, left := r.len, asking := asks }).sendData xn c.desc r (placeEnd xn s) bs
  if asks then d1.sendDyn 0 (xEnd xn) (placeEnd xn t) (.request xn r.id) else d1

/-- REQUEST_ISSUE: the engine issues the next request of a context (R234), checking its host window (R241). One of a GRAD is issued
while the unit's port has room for all that is on its way (R170). -/
def Dev.issueRequest (d : Dev) (xn no : Nat) (ecc : Ecc) : Dev :=
  let x := d.x xn
  match x.ctxs.find? fun c => c.no = no with
  | none => d
  | some c =>
    let n := d.pieceLen c.desc c.chunk c.off
    if !d.xWorks xn ∨ c.stop.isSome ∨ c.wait.isSome ∨ c.desc.kind = 4 ∨ c.chunk ≥ c.limit ∨ x.reqs.length ≥ 64 ∨
        (c.desc.kind = 5 ∧ d.gradComing (c.desc.dst % 32) + n > 0x100000) then d
    else
      let go (d : Dev) (page : Option (Port × Nat)) (haddr : Nat) : Dev :=
        let last := c.off + n ≥ c.desc.srcLen
        let x1 := x.update no fun c =>
          { c with chunk := if last then c.chunk + 1 else c.chunk, off := if last then 0 else c.off + n }
        { d.setX xn x1 with nextReq := d.nextReq + 1 }.launch xn c
          { id := d.nextReq, ctx := no, chunk := c.chunk, off := c.off, len := n, deadline := c.deadline, stage := .asked,
            sc := d.sched.sc, haddr := haddr, page := page } page.isSome ecc
      match c.desc.windowOf c.chunk c.off with
      | none => go d none 0
      | some (w, off, write) =>
        let h := ((d.word .rXFR_WIN_BASE [w]).toNat + off) % 2 ^ 64
        match d.windowCheck w off n write with
        | .wait => d
        | .go page => go d (page.map fun g => (windowPort w, g)) h
        | .translate page =>
          (d.setX xn (x.update no fun c => { c with wait := some (.translating page) })).emit (.ats (windowPort w) 0 page)
        | .fail cause ha => d.setX xn (x.update no fun c => c.fail cause w c.chunk ha)

/-! ## At the controllers -/

/-- A request that stands presented at a controller: its engine, context and itself. -/
structure Presented where
  xn : Nat
  c : XCtx
  r : XReq
  deriving DecidableEq, Repr

/-- The address a presented request reads or writes at its controller. -/
def Dev.presentedAt (d : Dev) (q : Presented) : Nat :=
  if q.r.stage = .reading then q.c.desc.srcOf q.r.chunk + q.r.off + d.readAdd q.c.desc else q.c.desc.dstOf q.r.chunk + q.r.off

/-- The requests presented at a controller (R220). -/
def Dev.presentedTo (d : Dev) (u : Nat) : List Presented :=
  d.xfer.flatMap fun e => e.2.reqs.filterMap fun r =>
    match e.2.ctxs.find? fun c => c.no = r.ctx with
    | none => none
    | some c =>
      let q : Presented := ⟨e.1, c, r⟩
      if (r.stage = .reading ∨ r.stage = .writing) ∧ tierController (d.presentedAt q) = some u then some q else none

/-- Place of a request's presenter within one sc, and among equal deadlines (R221, R239): injection stops, then engines by their
global index. The update unit comes before them all. -/
def Presented.place (q : Presented) : Nat := if q.c.desc.kind = 2 then q.c.desc.inj.stop else 3 + q.xn

/-- Order of presentation (R221), and of service (R239; log entry 84). -/
def Presented.before (q p : Presented) : Bool := decide ([q.r.sc, q.place, q.r.id] < [p.r.sc, p.place, p.r.id])
def Presented.sooner (q p : Presented) : Bool := decide ([q.r.deadline, q.place, q.r.id] < [p.r.deadline, p.place, p.r.id])

/-- Two requests touch one 64-byte codeword; both are multiples of 64 bytes. -/
def Dev.sharesWord (d : Dev) (q p : Presented) : Bool :=
  let a := d.presentedAt q
  let b := d.presentedAt p
  decide (a / 64 * 64 < b + p.r.len) && decide (b / 64 * 64 < a + q.r.len)

/-- The due cycle of the command that an update unit is running, while it has elements to work on (R170, R239). -/
def Dev.unitDeadline (d : Dev) (u : Nat) : Option Nat :=
  match (Tab.get {} d.upd u).running with
  | none => none
  | some run =>
    if bits run.cmd.flags 1 0 = 0 && (Tab.get [] d.gradPort u).isEmpty then none
    else (d.sched.board.find? fun e => e.item = run.cmd.item).map (·.due)

/-- The request a controller serves next (R239): the earliest deadline of those that no earlier one of their codewords holds up
(R221), unless its update unit has work with as early a deadline; none while the interface retrains (R229). -/
def Dev.servedNext (d : Dev) (u : Nat) : Option Presented :=
  let all := d.presentedTo u
  let free := all.filter fun q => all.all fun p => !(p.before q && d.sharesWord p q)
  match if d.retraining.contains u then none else free.find? fun q => free.all fun p => !p.sooner q with
  | none => none
  | some q => match d.unitDeadline u with
    | some t => if t ≤ q.r.deadline then none else some q
    | none => some q

/-- Codewords an access touches, as bytes; one of which it writes a part counts twice (R222, R223). -/
def tierBytes (a n : Nat) (write : Bool) : Nat :=
  let words := (a + n + 63) / 64 - a / 64
  let whole := (a + n) / 64 - (a + 63) / 64
  if write then 64 * whole + 128 * (words - whole) else 64 * words

/-- Count a memory-tier access: bytes in codewords, latency of reads (R222, R230). -/
def Dev.countTier (d : Dev) (a n latency : Nat) (write : Bool) : Dev :=
  match tierController a with
  | none => d
  | some u =>
    if n = 0 then d
    else if write then d.count .rMEM_WR_BYTES [u] (tierBytes a n true)
    else ((d.count .rMEM_RD_BYTES [u] (tierBytes a n false)).maxF fMEM_LAT_MAX_COUNT [u] latency).sample
      (if u % 5 < 3 then 1 else 2) u ((latency : Nat) : Int)

/-- A request's flit on VC0 reaches a controller (R220): a read is presented, or a write is, once its data are there too. -/
def Dev.requestArrives (d : Dev) (xn id : Nat) : Dev :=
  d.setReq xn id fun r =>
    if r.stage = .asked then { r with stage := .reading, sc := d.sched.sc }
    else if r.stage = .moving ∧ r.left = 0 then { r with stage := .writing, asking := false, sc := d.sched.sc }
    else { r with asking := false }

/-- Bytes that a descriptor writes: free ones where its destinations overlap its sources (R233). -/
def Dev.bytesOf (d : Dev) (c : Desc) (bs : List Nat) : List Nat × Dev :=
  if c.clash then ((List.range bs.length).map fun i => Config.freeWord (d.nonce + i) % 256, { d with nonce := d.nonce + bs.length })
  else (bs, d)

/-- Write bytes of a request where they belong in the part's memory or, through a window, in the host's. -/
def Dev.landPiece (d : Dev) (xn : Nat) (c : Desc) (r : XReq) (off : Nat) (bs : List Nat) : Dev :=
  let (bs, d1) := d.bytesOf c bs
  let t := c.dstOf r.chunk + r.off + off
  match locate t with
  | .window w _ => d1.emit (.hostWrite (windowPort w) ((r.haddr + off) % 2 ^ 64) bs)
  | _ => (d1.store (xferFault xn) t bs).countTier t bs.length 0 true

/-- A request's data in order of their offsets. -/
def XReq.whole (r : XReq) : List Nat :=
  (List.range r.data.length).flatMap fun i => ((r.data.find? fun p => (r.data.filter fun q => q.1 < p.1).length = i).map (·.2)).getD []

/-- REQUEST_COMPLETION at a memory tier: the request the controller serves next is read, and its data set out, or go into the injection
buffer (R110); or it is written, and a notice of that sets out on VC0 (R220, Table 13-3). An error may come up in it (R225). -/
def Dev.completeRequest (d : Dev) (xn idx : Nat) (err : TierErr) : Dev :=
  match (d.x xn).reqs[idx]? with
  | none => d
  | some r =>
    match (d.x xn).ctxs.find? fun c => c.no = r.ctx with
    | none => d
    | some c =>
      let a := d.presentedAt ⟨xn, c, r⟩
      match tierController a with
      | none => d
      | some u =>
        if d.servedNext u ≠ some ⟨xn, c, r⟩ then d
        else
          let d1 := d.tierStrike u err a
          if r.stage = .writing then
            ((d1.landPiece xn c.desc r 0 r.whole).setReq xn r.id fun r => { r with stage := .noticed }).sendDyn 0 (ctlEnd u) (xEnd xn)
              (.notice xn r.id)
          else
            let (bs, d2) := d1.load (xferFault xn) a r.len
            let d3 := d2.countTier a r.len (d2.sched.sc - r.sc) false
            if c.desc.kind = 2 then
              { d3 with inject := d3.inject.map fun (b : InjBuf) =>
                  if c.tiles.any fun t => t.item = b.item then { b with bytes := b.bytes ++ [(r.chunk, d.readSlot c.desc, r.off, bs)] }
                  else b }.finishReq xn c r
            else
              (d3.setReq xn r.id fun r => { r with stage := .moving, left := r.len }).sendData xn c.desc r (ctlEnd u) bs

/-! ## Data under way -/

/-- The bytes of a chunk of a SEND that have come together at a fabric port set out in packets (R247, R274). -/
def Dev.packChunk (d : Dev) (xn port chunk : Nat) (c : XCtx) : Dev :=
  let mine := c.outbox.filter fun o => o.1 = chunk
  if (mine.map fun o => o.2.2.length).foldl (· + ·) 0 < c.desc.len then d
  else
    let bs := (List.range c.desc.len).map fun i =>
      match mine.find? fun o => decide (o.2.1 ≤ i) && decide (i < o.2.1 + o.2.2.length) with
      | some o => nth 0 o.2.2 (i - o.2.1)
      | none => 0
    (d.setX xn ((d.x xn).update c.no fun c => { c with outbox := c.outbox.filter fun o => o.1 ≠ chunk })).sendWrite (xn, c.no, chunk)
      port c.desc.dev c.desc.tag (c.desc.dstOf chunk) bs

/-- Data of a request reach their endpoint (Table 12-2): on-chip bytes land; those for a memory tier or a window gather until the
request is whole; those of a SEND or a GRAD gather in its outbox. -/
def Dev.takeData (d : Dev) (at_ : Nat × Nat) (xn id off : Nat) (bs : List Nat) : Dev :=
  match (d.x xn).reqs.find? fun r => r.id = id with
  | none => d
  | some r =>
    match (d.x xn).ctxs.find? fun c => c.no = r.ctx with
    | none => d
    | some c =>
      let left := r.left - bs.length
      let t := c.desc.dstOf r.chunk + r.off
      let d1 := d.setReq xn id fun r => { r with left := left }
      let finish (d : Dev) : Dev := if left = 0 then d.finishReq xn c { r with left := 0 } else d
      if c.desc.kind = 3 ∨ c.desc.kind = 5 then
        let d2 := finish (d1.setX xn ((d1.x xn).update c.no fun c => { c with outbox := c.outbox ++ [(r.chunk, r.off + off, bs)] }))
        match (d2.x xn).ctxs.find? fun e => e.no = c.no with
        | some e => if c.desc.kind = 3 then d2.packChunk xn (6 * at_.1 + (at_.2 - 56)) r.chunk e else d2
        | none => d2
      else
        match locate t with
        | .hbm _ _ | .ddr _ _ =>
          d1.setReq xn id fun r =>
            let r' := { r with data := r.data ++ [(off, bs)] }
            if left = 0 ∧ !r.asking then { r' with stage := .writing, sc := d.sched.sc } else r'
        | .window w _ =>
          let d2 := d1.setReq xn id fun r => { r with data := r.data ++ [(off, bs)], stage := if left = 0 then .writing else r.stage }
          if left = 0 then d2.sendPcie w true r.haddr r.len r.page.isSome else d2
        | .onchip _ _ _ _ | .control _ | .nowhere =>
          finish ((d1.netAccess (t + off) bs.length c.desc.netPrio true false).2.landPiece xn c.desc r off bs)

/-- The notice that a write is visible reaches its engine (R220, R235). -/
def Dev.takeNotice (d : Dev) (xn id : Nat) : Dev :=
  match (d.x xn).reqs.find? fun r => r.id = id with
  | none => d
  | some r =>
    match (d.x xn).ctxs.find? fun c => c.no = r.ctx with
    | none => d
    | some c => d.finishReq xn c r

/-- PCIE_COMPLETION of a host window request (R243, R245): its read data set out from the engine, its write is done; or it fails. -/
def Dev.completePcie (d : Dev) (xn idx : Nat) (h : HostRead) : Dev :=
  match (d.x xn).reqs[idx]? with
  | none => d
  | some r =>
    match (d.x xn).ctxs.find? fun c => c.no = r.ctx with
    | none => d
    | some c =>
      match c.desc.windowOf r.chunk r.off with
      | none => d
      | some (w, _, write) =>
        if r.stage ≠ (if write then .writing else .reading) then d
        else if !h.ok then
          let down := d.portDown (windowPort w)
          (d.setX xn ((d.x xn).update r.ctx fun c =>
            c.fail (if down then 6 else 5) w r.chunk (if down then 0 else r.haddr))).endReq xn r
        else if write then (d.landPiece xn c.desc r 0 r.whole).finishReq xn c r
        else
          (d.setReq xn r.id fun r => { r with stage := .moving, left := r.len }).sendData xn c.desc r (xEnd xn)
            ((h.bytes.map BitVec.toNat ++ List.replicate r.len 0).take r.len)

/-! ## Descriptors and tiles complete -/

/-- Whether a tile of a context has every byte in place (R235), those of a SEND accepted by a fabric port (R247). -/
def Dev.tileDone (d : Dev) (xn : Nat) (c : XCtx) (t : XTile) : Bool :=
  decide (t.done ≥ c.desc.tileChunks * c.desc.srcLen) && !(c.desc.kind = 3 && d.unsent xn c.no none)

/-- DESCRIPTOR_COMPLETION: tiles that are done report to the scoreboard; a descriptor whose every tile is done frees its
context (R234, R235, R110), unless it has stopped (R245). -/
def Dev.completeDesc (d : Dev) (xn no : Nat) : Dev :=
  let x := d.x xn
  match x.ctxs.find? fun c => c.no = no with
  | none => d
  | some c =>
    let d1 := (c.tiles.filter fun t => !t.reported && d.tileDone xn c t).foldl (fun d t => d.report t.item) d
    let tiles := c.tiles.map fun (t : XTile) => if d.tileDone xn c t then { t with reported := true } else t
    if tiles.length = c.desc.tiles ∧ tiles.all (·.reported) ∧ c.stop.isNone then
      ((d1.setX xn { x with ctxs := x.ctxs.filter fun c => c.no ≠ no }).count .rXFR_DESCS [xn] 1).grantContext xn
    else d1.setX xn (x.update no fun c => { c with tiles := tiles })

/-- STREAM_TILE_ISSUE: tile t > P is issued at the due cycle of tile t − P and takes its entry (R237). -/
def Dev.issueTile (d : Dev) (xn no : Nat) : Dev :=
  let x := d.x xn
  let step (waiting : Bool) (c : XCtx) : Dev :=
    let t := c.tiles.length
    if c.desc.kind ≠ 1 ∨ c.full ∨ !d.xWorks xn ∨ t ≥ c.desc.tiles ∨
        d.sched.sc < c.due + (t - c.desc.p) * c.desc.tperiod then d
    else
      let (new, d1) := d.takeTiles (xn / 8) c.desc c.due none 3 (xn % 8) (xUnit xn) t 1 []
      let f (c : XCtx) : XCtx :=
        { c with tiles := c.tiles ++ new, limit := c.limit + new.length * c.desc.tileChunks, full := new.isEmpty }
      let x := d1.x xn
      if waiting then d1.setX xn { x with waiting := x.waiting.map fun c' => if c' = c then f c' else c' }
      else d1.setX xn (x.update no f)
  if no < 16 then
    match x.ctxs.find? fun c => c.no = no with
    | some c => step false c
    | none => d
  else
    match x.waiting[no - 16]? with
    | some c => step true c
    | none => d

/-! ## Fixed-latency descriptors -/

/-- Flits that an endpoint's reads give in one sc: four with two ports, two with one (R252); the yard store has eight ports (R204). -/
def perSc (space c : Nat) : Nat := if space = 0 then 16 else 2 * portsOf c

/-- The flits of a chunk's read: offset and length, endpoint, port and half, the sc after the chunk's own that they are presented in
(R204, R252, R257). -/
def chunkFlits (a n : Nat) : List (Nat × Nat × (Nat × Nat) × Nat × Nat × Nat) :=
  match locate a with
  | .onchip y sp e off =>
    let cuts := flitCuts a n
    (List.range cuts.length).map fun i =>
      let f := nth (0, 0) cuts i
      let end_ := onchipEnd y sp e (off + f.1)
      let per := perSc sp end_.2
      let slot := if sp = 0 then i % per / 8 else i % per
      (f.1, f.2, end_, (if sp = 0 then 0 else slot % portsOf end_.2), (if sp = 0 then slot else slot / portsOf end_.2 % 2), i / per)
  | .hbm _ _ | .ddr _ _ | .window _ _ | .control _ | .nowhere => []

/-- Where the flits of a fixed-latency descriptor are headed (R252). -/
def chunkDest (xn : Nat) (c : XFix) (off : Nat) : NetDest :=
  if c.desc.kind = 3 then .fabric xn c.no c.next off
  else
    match locate (c.desc.dstOf c.next + off) with
    | .onchip y sp e o => .mem (some y) sp (if sp = 0 then 0xFF else e) o
    | .hbm _ _ | .ddr _ _ | .window _ _ | .control _ | .nowhere => .nowhere

/-- One flit of a chunk is read, and handed to the network once the read has been served within its slack (R205, R257); one that a
fenced engine would have sent is missing (R264). -/
def Dev.presentFlit (d : Dev) (xn : Nat) (c : XFix) (f : Nat × Nat × (Nat × Nat) × Nat × Nat × Nat) : Dev :=
  let (off, n, end_, k, half, _) := f
  let a := c.desc.srcOf c.next + off
  match placeOf end_.2 with
  | some (r, p) =>
    if !d.xWorks xn then d.violation 5 (xn / 8) 3 (regionOf end_.1 r)
    else
    let (acc, d1) := d.netAccess a n 1 false true
    let (bs, d2) := d1.load (xferFault xn) a n
    let (bs, d3) := d2.bytesOf c.desc bs
    (d3.count .rXFR_BYTES [xn] n).deliver (match locate a with | .onchip _ 0 _ _ => 6 | _ => 8)
      (.source acc (regionOf end_.1 r) (.hand end_.1 end_.2 r (p + k) half (chunkDest xn c off) (bs.map some)))
  | none => d

/-- Bytes of a chunk of a fixed-latency SEND have come together at a fabric port: it sets out in packets (R247). -/
def Dev.packFixed (d : Dev) (xn : Nat) (c : XFix) : Dev :=
  let mine := c.outbox.filter fun o => o.1 = c.sent
  if c.desc.kind ≠ 3 ∨ (mine.map fun o => o.2.2.length).foldl (· + ·) 0 < c.desc.len then d
  else
    let bs := (List.range c.desc.len).map fun i =>
      match mine.find? fun o => decide (o.2.1 ≤ i) && decide (i < o.2.1 + o.2.2.length) with
      | some o => nth 0 o.2.2 (i - o.2.1)
      | none => 0
    (d.setX xn ((d.x xn).updateFixed c.no fun x => { x with sent := x.sent + 1, outbox := x.outbox.filter fun o => o.1 ≠ c.sent })).sendWrite
      (xn, 16 + c.no, c.sent) (d.sendPort (xn / 8) c.desc.dev c.desc.tag) c.desc.dev c.desc.tag (c.desc.dstOf c.sent) bs

/-- When chunk `j` of a fixed-latency descriptor is in place (R235). -/
def XFix.placed (c : XFix) (j : Nat) : Nat := c.issue + c.desc.fixlat + j * c.desc.cperiod

/-- CHUNK_PRESENTATION: chunk j is read from issue + j × CPERIOD on, as fast as its endpoint's ports take the flits (R235, R252); a
SEND's chunk that no fabric port has accepted by its FIXLAT raises PATH (R247). Once the last is in place the context is free. -/
def Dev.presentChunk (d : Dev) (xn no : Nat) (ecc : Ecc) : Dev :=
  match (d.x xn).fixed.find? fun c => c.no = no with
  | none => d
  | some c =>
    let sc := d.sched.sc
    if c.desc.kind = 5 ∨ d.isStopped (xUnit xn) then d
    else if c.next < c.desc.chunks ∧ c.issue + c.next * c.desc.cperiod ≤ sc then
      let all := chunkFlits (c.desc.srcOf c.next) c.desc.len
      let now := (all.drop c.flits).takeWhile fun f => decide (c.issue + c.next * c.desc.cperiod + f.2.2.2.2.2 ≤ sc)
      if now.isEmpty ∧ c.flits < all.length then d
      else
        let d1 := now.foldl (fun d f => d.presentFlit xn c f) (d.strike ecc (c.desc.srcOf c.next + (now.map (·.1)).headD 0))
        let last : Bool := c.flits + now.length ≥ all.length
        d1.setX xn ((d1.x xn).updateFixed no fun x =>
          { x with next := if last then x.next + 1 else x.next, flits := if last then 0 else x.flits + now.length })
    else if c.desc.kind = 3 ∧ c.sent < c.desc.chunks ∧
        (c.outbox.filter fun o => o.1 = c.sent).foldl (fun n o => n + o.2.2.length) 0 ≥ c.desc.len then d.packFixed xn c
    else if c.desc.kind = 3 ∧ c.judged < c.desc.chunks ∧ c.placed c.judged ≤ sc then
      let d1 := d.setX xn ((d.x xn).updateFixed no fun x => { x with judged := x.judged + 1 })
      if c.sent ≤ c.judged ∨ d.unsent xn (16 + no) (some c.judged) then
        (d1.violation 5 (xn / 8) 3 (endRegion (xEnd xn))).stopUnit (xUnit xn)
      else d1
    else if c.next ≥ c.desc.chunks ∧ c.placed (c.desc.chunks - 1) ≤ sc then
      (d.setX xn { d.x xn with fixed := (d.x xn).fixed.filter fun c => c.no ≠ no }).count .rXFR_DESCS [xn] 1
    else d

/-! ## Gradient deliveries -/

/-- GRAD_DELIVERY from on-chip memory: the next flit is read and sent to the unit's endpoint, while its port has room (R170, R235). -/
def Dev.sendGrad (d : Dev) (xn : Nat) (c : XFix) (ecc : Ecc) : Dev :=
  let u := c.desc.dst % 32
  let chunk := c.sent / c.desc.len
  let off := c.sent % c.desc.len
  let a := c.desc.srcOf chunk + off
  let n := min (c.desc.len - off) (256 - a % 256)
  if d.gradComing u + n > 0x100000 then d
  else
    let d1 := ((d.netAccess a n c.desc.netPrio false false).2.strike ecc a).load (xferFault xn) a n
    let d2 := (d1.2.count .rXFR_BYTES [xn] n).sendDyn c.desc.vc (placeEnd xn a) (ctlEnd u) (.grad xn c.no u d1.1)
    if c.sent + n ≥ c.desc.chunks * c.desc.len then
      (d2.setX xn { d2.x xn with fixed := (d2.x xn).fixed.filter fun e => e.no ≠ c.no }).count .rXFR_DESCS [xn] 1
    else d2.setX xn ((d2.x xn).updateFixed c.no fun x => { x with sent := c.sent + n })

/-- GRAD_DELIVERY of a context: the next bytes in order that have come to the unit's endpoint enter its port (R170). -/
def Dev.takeGrad (d : Dev) (xn : Nat) (c : XCtx) : Dev :=
  let u := c.desc.dst % 32
  let done := (c.tiles.map (·.done)).foldl (· + ·) 0
  match c.outbox.find? fun o => o.1 * c.desc.len + o.2.1 = done with
  | none => d
  | some o =>
    if (Tab.get [] d.gradPort u).length + o.2.2.length > 0x100000 then d
    else
      ({ d with gradPort := Tab.put [] d.gradPort u (Tab.get [] d.gradPort u ++ o.2.2) }.setX xn ((d.x xn).update c.no fun c =>
        { c with outbox := c.outbox.erase o })).tileBytes xn c.no 0 o.2.2.length

def Dev.deliverGrad (d : Dev) (xn : Nat) (fixedCtx : Bool) (no : Nat) (ecc : Ecc) : Dev :=
  if fixedCtx then
    match (d.x xn).fixed.find? fun c => c.no = no with
    | some c => if c.desc.kind = 5 ∧ d.xWorks xn then d.sendGrad xn c ecc else d
    | none => d
  else
    match (d.x xn).ctxs.find? fun c => c.no = no with
    | some c => if c.desc.kind = 5 then d.takeGrad xn c else d
    | none => d

/-! ## Translation and faults -/

/-- Every context of every engine that waits on a page of a port. -/
def Dev.mapWaiting (d : Dev) (p : Port) (f : XCtx → XCtx) : Dev :=
  let onPort (c : XCtx) : Bool :=
    match c.desc.windowOf c.chunk c.off with
    | some (w, _, _) => decide (windowPort w = p)
    | none => false
  { d with xfer := d.xfer.map fun e =>
      (e.1, { e.2 with ctxs := e.2.ctxs.map fun c => if c.wait.isSome && onPort c then f c else c }) }

/-- Page requests outstanding on a port. -/
def Dev.pageRequests (d : Dev) (p : Port) : List Nat :=
  (d.xfer.flatMap fun e => e.2.ctxs.filterMap fun c =>
    match c.wait, c.desc.windowOf c.chunk c.off with
    | some (.paging g _), some (w, _, _) => if windowPort w = p then some g else none
    | _, _ => none).eraseDups

/-- When the outstanding request for a page times out, if there is one. -/
def Dev.pageExpiry (d : Dev) (p : Port) (page : Nat) : Option Nat :=
  d.xfer.findSome? fun e => e.2.ctxs.findSome? fun c =>
    match c.wait, c.desc.windowOf c.chunk c.off with
    | some (.paging g t), some (w, _, _) => if windowPort w = p ∧ g = page then some t else none
    | _, _ => none

/-- Send the page request of a context that is denied a page, wait for one that is outstanding for it, or wait for a slot (R244). -/
def Dev.requestPage (d : Dev) (xn no : Nat) (p : Port) (page : Nat) : Dev :=
  let x := d.x xn
  match d.pageExpiry p page with
  | some t => d.setX xn (x.update no fun c => { c with wait := some (.paging page t) })
  | none =>
    if (d.pageRequests p).length < (d.port p).cfg.priAlloc then
      let expiry := d.sched.ref + d.getF fXFR_CTL_PRI_TIMEOUT [] * 800000 * 9
      (((d.setX xn (x.update no fun c => { c with wait := some (.paging page expiry) })).emit (.ats p 1 page)).count
        .rXFR_PRI_CNT [xn] 1).noteFlags
    else d.setX xn (x.update no fun c => { c with wait := some (.slot page) })

/-- The contexts of the part that wait on a page in a given way: engine and context numbers. -/
def Dev.waiters (d : Dev) (p : Port) (test : XlatWait → Bool) : List (Nat × Nat) :=
  d.xfer.flatMap fun e => e.2.ctxs.filterMap fun c =>
    match c.wait, c.desc.windowOf c.chunk c.off with
    | some w, some (win, _, _) => if windowPort win = p && test w then some (e.1, c.no) else none
    | _, _ => none

/-- Stop a context on a translation fault (R244, R245). -/
def Dev.failWaiter (d : Dev) (cause : Nat) (xc : Nat × Nat) : Dev :=
  d.setX xc.1 ((d.x xc.1).update xc.2 fun c =>
    match c.desc.windowOf c.chunk c.off with
    | some (w, off, _) => c.fail cause w c.chunk (((d.word .rXFR_WIN_BASE [w]).toNat + off) % 2 ^ 64)
    | none => c)

/-- A slot may have become free: contexts that wait for one send their page requests (R244). -/
def Dev.grantSlots (d : Dev) (p : Port) : Dev :=
  (d.waiters p fun w => match w with | .slot _ => true | _ => false).foldl
    (fun d xc =>
      match ((d.x xc.1).ctxs.find? fun c => c.no = xc.2).bind (·.wait) with
      | some (.slot page) => d.requestPage xc.1 xc.2 p page
      | _ => d) d

/-- HOST_WINDOW_FAULT: a stopped descriptor whose outstanding requests have finished has its fault recorded and raised
(R245). -/
def Dev.recordFault (d : Dev) (xn no : Nat) : Dev :=
  let x := d.x xn
  match x.ctxs.find? fun c => c.no = no with
  | none => d
  | some c =>
    match c.stop with
    | none => d
    | some s =>
      if s.recorded ∨ x.reqs.any (fun r => r.ctx = no) then d
      else
        let x1 := x.update no fun c => { c with stop := some { s with recorded := true } }
        let d1 := d.setX xn { x1 with faults := x1.faults ++ [no] }
        let d2 := d1.event (.only (.host (windowPort s.window))) 0x03 .transferFault
          (xn + s.cause * 2 ^ 8 + s.window * 2 ^ 16)
        if d2.flag fXFR_CTL_FAULT_EVENT [] then d2.fire 13 xn else d2

/-- Resume a stopped descriptor from a chunk: what had completed after it is moved again (R246). -/
def XCtx.resume (c : XCtx) (chunk : Nat) : XCtx :=
  { c with
    stop := none, wait := none, chunk := chunk, off := 0, outbox := []
    tiles := c.tiles.map fun (t : XTile) =>
      let first := t.tile * c.desc.tileChunks
      { t with done := (min c.desc.tileChunks (chunk - first)) * c.desc.srcLen } }

/-- XFR_STAT and the fault registers of an engine as R249 shows them. -/
def Dev.xferView (d : Dev) (r : RegName) (xn : Nat) : Nat :=
  let x := d.x xn
  let cur := x.faults.head?.bind fun no => x.ctxs.find? fun c => c.no = no
  if r = .rXFR_STAT then
    x.ctxs.length + x.waiting.length + x.fixed.length * 2 ^ 32 + x.faults.length * 2 ^ 48
      + d.getF fXFR_STAT_LOST [xn] * 2 ^ 62 + b2n (!x.faults.isEmpty) * 2 ^ 63
  else
    match cur.bind (·.stop), cur with
    | some s, some c =>
      let i := c.desc.coords s.chunk
      if r = .rXFR_FAULT then
        c.no * 2 ^ 43 + s.window * 2 ^ 47 + s.window / 512 * 2 ^ 57 + s.cause * 2 ^ 58
          + b2n (x.faults.length > 1) * 2 ^ 62 + 2 ^ 63
      else if r = .rXFR_FAULT_C01 then nth 0 i 0 + nth 0 i 1 * 2 ^ 32
      else if r = .rXFR_FAULT_C23 then nth 0 i 2 + nth 0 i 3 * 2 ^ 32
      else if r = .rXFR_FAULT_C4 then nth 0 i 4
      else s.haddr
    | _, _ => 0

/-! ## Abort -/

/-- An outstanding request of a stopping engine finishes, with no error, or times out: for a read through a host window, whether it does
and what the host returns is open (R246). -/
def Dev.rushRequest (d : Dev) (xn : Nat) (c : XCtx) (r : XReq) : Dev :=
  let s := c.desc.srcOf r.chunk + r.off
  let moving := r.data ++
    ((d.dyn.map fun f => f.cargo) ++ d.net.filterMap fun f => f.cargo).filterMap fun g =>
      match g with
      | .data x id off bs => if x = xn && id = r.id then some (off, bs) else none
      | _ => none
  let (pieces, d1) : List (Nat × List Nat) × Dev :=
    if r.stage = .asked ∨ r.stage = .reading then
      match locate s with
      | .window _ _ =>
        let bs := (List.range r.len).map fun i => Config.freeWord (d.nonce + 1 + i) % 256
        (if Config.freeBool d.nonce then [(0, bs)] else [], { d with nonce := d.nonce + 1 + r.len })
      | _ => let q := d.load (xferFault xn) s r.len; ([(0, q.1)], q.2.countTier s r.len (d.sched.sc - r.sc) false)
    else if r.stage = .noticed then ([], d)
    else (moving, d)
  (if c.desc.hasDst then pieces.foldl (fun d p => d.landPiece xn c.desc r p.1 p.2) d1 else d1).finishReq xn c r

def Dev.drainRequests (d : Dev) (xn : Nat) : Dev :=
  (d.x xn).reqs.foldl (fun d r =>
    match (d.x xn).ctxs.find? fun c => c.no = r.ctx with
    | some c => d.rushRequest xn c r
    | none => d.endReq xn r) d

/-- Cargo of a transfer engine. -/
def Cargo.ofEngine : Cargo → Bool
  | .request _ _ | .data _ _ _ _ | .notice _ _ | .grad _ _ _ _ => true
  | .command _ _ _ | .transit _ _ => false

/-- Every transfer engine stops: outstanding requests end, then contexts, waiting descriptors and pending faults are discarded (R246,
R331). -/
def Dev.abortTransfers (d : Dev) : Dev :=
  let d1 := (List.range 32).foldl (fun d xn => d.drainRequests xn) d
  { d1 with xfer := [], inject := [], dyn := d1.dyn.filter fun f => !f.cargo.ofEngine }

/-! ## The commands -/

def execRequestIssue (x : XEng) (ctx : Fin 16) (ecc : Ecc) (s : State) : Host.Outcome State Fault Refusal :=
  s.upd fun _ d => d.issueRequest (xNo x) ctx.val ecc

/-- Completion of a request at a memory controller (R220, R239). -/
def execRequestCompletion (x : XEng) (idx : Fin 64) (err : TierErr) (s : State) : Host.Outcome State Fault Refusal :=
  s.upd fun _ d => d.completeRequest (xNo x) idx.val err

/-- Completion of a host window request, or its completion timeout (R243, R245). -/
def execPcieCompletion (x : XEng) (idx : Fin 64) (r : HostRead) (s : State) : Host.Outcome State Fault Refusal :=
  s.upd fun _ d => d.completePcie (xNo x) idx.val r

def execContextGrant (x : XEng) (s : State) : Host.Outcome State Fault Refusal :=
  s.upd fun _ d => d.grantContext (xNo x)

def execDescriptorCompletion (x : XEng) (ctx : Fin 16) (s : State) : Host.Outcome State Fault Refusal :=
  s.upd fun _ d => d.completeDesc (xNo x) ctx.val

def execChunkPresentation (x : XEng) (ctx : Fin 8) (ecc : Ecc) (s : State) : Host.Outcome State Fault Refusal :=
  s.upd fun _ d => d.presentChunk (xNo x) ctx.val ecc

/-- `place` is a context 0 to 15, or 16 + the place on the waiting list. -/
def execStreamTileIssue (x : XEng) (place : Fin 64) (s : State) : Host.Outcome State Fault Refusal :=
  s.upd fun _ d => d.issueTile (xNo x) place.val

def execGradDelivery (x : XEng) (fixedCtx : Bool) (ctx : Fin 16) (ecc : Ecc) (s : State) : Host.Outcome State Fault Refusal :=
  s.upd fun _ d => d.deliverGrad (xNo x) fixedCtx ctx.val ecc

def execHostWindowFault (x : XEng) (ctx : Fin 16) (s : State) : Host.Outcome State Fault Refusal :=
  s.upd fun _ d => d.recordFault (xNo x) ctx.val

/-- The pages of 4 KiB that a translation of 2^order of them covers, from the aligned one on. -/
def pageBase (page order : Nat) : Nat := page / 2 ^ order * 2 ^ order

/-- TRANSLATION_COMPLETION (R244): a page is granted, or denied; a grant may cover 2^order pages of 4 KiB. -/
def execTranslationCompletion (p : Port) (page : BitVec 52) (order : Fin 20) (read write : Bool) (s : State) :
    Host.Outcome State Fault Refusal :=
  s.upd fun _ d =>
    let g := page.toNat
    let a := d.ats p
    let new : AtsEntry := ⟨pageBase g order.val, 2 ^ order.val, read, write⟩
    let d1 := if read || write then
        let others := a.cache.filter (fun e => !e.covers g)
        d.setAts p { a with cache := others.drop (others.length - 4095) ++ [new] }
      else d
    (d1.waiters p fun w => decide (w = .translating g)).foldl
      (fun d xc =>
        match (d.x xc.1).ctxs.find? fun c => c.no = xc.2 with
        | none => d
        | some c =>
          let needsWrite := match c.desc.windowOf c.chunk c.off with | some (_, _, w) => w | none => false
          if if needsWrite then write else read then
            d.setX xc.1 ((d.x xc.1).update xc.2 fun c => { c with wait := none })
          else if !(d.port p).cfg.pri then d.failWaiter 2 xc
          else d.requestPage xc.1 xc.2 p g) d1

/-- PRG_RESPONSE (R244): Success retries the translation, anything else stops the descriptor. -/
def execPrgResponse (p : Port) (page : BitVec 52) (success : Bool) (s : State) : Host.Outcome State Fault Refusal :=
  s.upd fun _ d =>
    let ws := d.waiters p fun w => match w with | .paging g _ => g == page.toNat | _ => false
    let d1 := ws.foldl (fun d xc =>
      if success then d.setX xc.1 ((d.x xc.1).update xc.2 fun c => { c with wait := none })
      else d.failWaiter 2 xc) d
    d1.grantSlots p

/-- INVALIDATE_REQUEST (R244): translations of the range are dropped, and the invalidation completes once the requests that use one
of them now have completed. -/
def execInvalidateRequest (p : Port) (page : BitVec 52) (order : Fin 20) (s : State) : Host.Outcome State Fault Refusal :=
  s.upd fun _ d =>
    let a := d.ats p
    let base := pageBase page.toNat order.val
    let users := d.xfer.flatMap fun e => e.2.reqs.filterMap fun r =>
      match r.page with
      | some (q, g) => if q = p ∧ base ≤ g ∧ g < base + 2 ^ order.val then some r.id else none
      | none => none
    (d.setAts p { a with cache := a.cache.filter fun e => !(decide (e.page < base + 2 ^ order.val) && decide (base < e.page + e.span))
                         invalidating := a.invalidating ++ [(base, users)] }).finishInvalidations p

/-- PRI_TIMEOUT (R244): page requests that have had no response for XFR_CTL.PRI_TIMEOUT milliseconds, as it stood when they
were sent (Table 12-8), stop their descriptors. -/
def execPriTimeout (p : Port) (s : State) : Host.Outcome State Fault Refusal :=
  s.upd fun _ d =>
    let ws := d.waiters p fun w => match w with | .paging _ expiry => decide (d.sched.ref ≥ expiry) | _ => false
    (ws.foldl (fun d xc => d.failWaiter 1 xc) d).grantSlots p

/-- Whether a variable-latency descriptor that is not stopped names a window (R242). -/
def Dev.windowNamed (d : Dev) (w : Nat) : Bool :=
  let names (c : Desc) : Bool :=
    c.kind ≠ 4 && (List.range c.chunks).any fun n =>
      (match locate (c.srcOf n) with | .window w' _ => w' == w | _ => false) ||
        (c.hasDst && match locate (c.dstOf n) with | .window w' _ => w' == w | _ => false)
  d.xfer.any fun e => (e.2.ctxs.any fun c => c.stop.isNone && names c.desc) || e.2.waiting.any fun c => names c.desc

/-- Clear both registers of a window (R249). -/
def Dev.clearWindow (d : Dev) (w : Nat) : Dev := (d.setWord .rXFR_WIN_BASE [w] 0).setWord .rXFR_WIN_CFG [w] 0

end Sys2Proof.Machine
end

