-- ==== Sys2Proof/Machine/Approx.lean ====
section
/-! DEFINITION. Functions the spec gives to within some units in the last place (R90, R124, R144): the real function to far
more bits than FP32 holds, moved by a free error within the bound (log entry 10). Nothing here is a spec algorithm. -/
namespace Sys2Proof.Machine

/-- Reals in fixed point with 512 fractional bits. -/
def fxOne : Int := ((2 ^ 512 : Nat) : Int)
def fxMul (a b : Int) : Int := a * b / fxOne
def fxDiv (a b : Int) : Int := a * fxOne / b
def fxSqrt (a : Int) : Int := ((isqrt (a.toNat * 2 ^ 512) : Nat) : Int)

def toFx (v : Val) : Int :=
  match v with
  | .fin n m e =>
    let s := e + 512
    let a : Int := if s ≥ 0 then ((m <<< s.toNat : Nat) : Int) else ((m >>> (-s).toNat : Nat) : Int)
    if n then -a else a
  | .nan | .inf _ => 0

def ofFx (x : Int) : Val := .fin (x < 0) x.natAbs (-512)

/-- Sum of `n` terms, each made from the one before: (sum, term). -/
def series (next : Nat → Int → Int) : Nat → Nat → Int → Int → Int
  | 0, _, _, acc => acc
  | n + 1, k, t, acc => series next n (k + 1) (next k t) (acc + t)

/-- exp of a number of magnitude at most 1, by its power series. -/
def fxExpSmall (x : Int) : Int := series (fun k t => fxMul t x / (k + 1 : Nat)) 110 0 fxOne 0

/-- Powers z, z³, z⁵, … over 1, 3, 5, …: the inverse hyperbolic tangent; with the sign alternating, the arctangent. -/
def fxAtanh (z : Int) (alt : Bool) : Int :=
  let z2 := if alt then -(fxMul z z) else fxMul z z
  (series (fun k t => fxMul (t * (2 * k + 1 : Nat)) z2 / (2 * k + 3 : Nat)) 170 0 z 0)

def fxLn2 : Int := 2 * fxAtanh (fxOne / 3) false
def fxPi : Int := 16 * fxAtanh (fxOne / 5) true - 4 * fxAtanh (fxOne / 239) true

/-- 2^x for x in fixed point: mantissa in fixed point and exponent. -/
def fxExp2 (x : Int) : Val :=
  if x > 1100 * fxOne then .fin false 1 1100
  else if x < -1100 * fxOne then .fin false 1 (-1100)
  else
    let n := x / fxOne
    .fin false (fxExpSmall (fxMul (x - n * fxOne) fxLn2)).toNat (n - 512)

/-- e^x. -/
def fxExp (x : Int) : Int :=
  if x < -360 * fxOne then 0 else if x > 700 * fxOne then toFx (fxExp2 (1050 * fxOne)) else toFx (fxExp2 (fxDiv x fxLn2))

/-- log₂ of a positive value. -/
def fxLog2 (v : Val) : Int :=
  match v with
  | .fin _ m e =>
    let k : Int := (Nat.log2 m : Int)
    let u := toFx (.fin false m (-k))
    (e + k) * fxOne + fxDiv (2 * fxAtanh (fxDiv (u - fxOne) (u + fxOne)) false) fxLn2
  | .nan | .inf _ => 0

/-- tanh and the logistic function. -/
def fxTanh (x : Int) : Int :=
  let a := if x < 0 then -x else x
  if a > 100 * fxOne then (if x < 0 then -fxOne else fxOne)
  else
    let e := fxExp (2 * a)
    let t := fxDiv (e - fxOne) (e + fxOne)
    if x < 0 then -t else t
def fxSig (x : Int) : Int :=
  if x > 300 * fxOne then fxOne
  else let e := fxExp x; fxDiv e (fxOne + e)

/-- erf, by its power series for arguments below 12. -/
def fxErf (x : Int) : Int :=
  let a := if x < 0 then -x else x
  if a > 12 * fxOne then (if x < 0 then -fxOne else fxOne)
  else
    let x2 := fxMul a a
    let s := series (fun k t => -(fxMul (t * (2 * k + 1 : Nat)) x2) / ((k + 1) * (2 * k + 3) : Nat)) 700 0 a 0
    let r := fxDiv (2 * s) (fxSqrt fxPi)
    if x < 0 then -r else r

/-- The normal distribution and its density. -/
def fxPhi (x : Int) : Int := if x < -16 * fxOne then 0 else (fxOne + fxErf (fxDiv x (fxSqrt (2 * fxOne)))) / 2
def fxDens (x : Int) : Int :=
  if x > 40 * fxOne ∨ x < -40 * fxOne then 0
  else fxDiv (fxExp (-(fxMul x x) / 2)) (fxSqrt (2 * fxPi))

/-- The argument of the tanh form of GELU, and its derivative. -/
def geluArg (x : Int) : Int :=
  fxMul (fxSqrt (fxDiv (2 * fxOne) fxPi)) (x + fxMul (fxDiv (44715 * fxOne) (1000000 * fxOne)) (fxMul x (fxMul x x)))
def geluArg' (x : Int) : Int :=
  fxMul (fxSqrt (fxDiv (2 * fxOne) fxPi)) (fxOne + fxMul (fxDiv (134145 * fxOne) (1000000 * fxOne)) (fxMul x x))

/-- One unit in the last place of FP32 at a value. -/
def ulpOf (v : Val) : Val := .fin false 1 (max v.log2 (-126) - 23)

/-- a ≤ b, for numbers. -/
def Val.le (a b : Val) : Bool :=
  match a.add b.neg with
  | .fin n m _ => n || m = 0
  | .nan | .inf _ => false

/-- An FP32 value within `bound` units in the last place of a real value: a free choice among them, with its sign (log entry 10). A
value that overflows gives the infinity. -/
def approxTo (fn bound key : Nat) (v : Val) : Nat :=
  let w := v.toFp32
  match v with
  | .fin n _ _ =>
    let mag := w % 2 ^ 31
    let sign := if n then 2 ^ 31 else 0
    let far := (List.range bound).foldl (fun t _ => t.add (ulpOf v)) (.fin false 0 0)
    let near := ((List.range (2 * bound + 1)).map fun i => mag + i - bound).filter fun c =>
      decide (c < 0x7F800000) && (((val32 (c + sign)).add v.neg).abs.le far)
    if mag ≥ 0x7F800000 then w else nth mag near (Config.approx fn key % max 1 near.length) + sign
  | .nan | .inf _ => w

/-- A fixed-point result of a function that is nowhere 0 but at 0: a real value too small for the fixed point keeps its sign and is not
zero. -/
def ofFxS (neg : Bool) (x : Int) : Val := if x = 0 then .fin neg 1 (-2000) else ofFx x

/-- 1/√x of a positive value. -/
def rsqrtVal (v : Val) : Val := (Val.fin false 1 0).div v.sqrt

/-- Whether a value is a power of two, and its exponent (R144). -/
def Val.pow2 (v : Val) : Option Int :=
  match v with
  | .fin _ m e => if m ≠ 0 ∧ m = 2 ^ Nat.log2 m then some (e + (Nat.log2 m : Int)) else none
  | .nan | .inf _ => none

end Sys2Proof.Machine
end

