-- ==== Sys2Proof/Machine/Arrays.lean ====
section
/-! DEFINITION. What matrix engines, drains and vector stores share: the engines' tables and base registers (R179), gathering
and scattering bytes of an engine's memories (R26, R181, R200, R209), array layouts (R116, R117) and shapes (R77). -/
namespace Sys2Proof.Machine

/-! ## Engine tables -/

def mKey (e : MEng) : Nat := 16 * e.yard.val + e.idx.val
def vKey (e : VEng) : Nat := 8 * e.yard.val + e.idx.val
def sKey (e : SEng) : Nat := 4 * e.yard.val + e.idx.val

def Dev.m (d : Dev) (e : MEng) : MState := Tab.get {} d.mEng (mKey e)
def Dev.setM (d : Dev) (e : MEng) (m : MState) : Dev := { d with mEng := Tab.put {} d.mEng (mKey e) m }
def Dev.v (d : Dev) (e : VEng) : VState := Tab.get {} d.vEng (vKey e)
def Dev.setV (d : Dev) (e : VEng) (v : VState) : Dev := { d with vEng := Tab.put {} d.vEng (vKey e) v }
def Dev.s (d : Dev) (e : SEng) : SState := Tab.get {} d.sEng (sKey e)
def Dev.setS (d : Dev) (e : SEng) (s : SState) : Dev := { d with sEng := Tab.put {} d.sEng (sKey e) s }

/-- What a register that nothing has written holds: 0 before the first START, a free value after one (R141, R179, R184; log
entry 4). `reg` numbers the register over the part. -/
def Dev.unwritten (d : Dev) (reg idx w : Nat) : Nat := if d.gen = 0 then 0 else Config.freeReg d.gen reg idx % 2 ^ w

/-- A base register of a matrix engine, and of a vector engine (R179, R141). -/
def Dev.mb (d : Dev) (e : MEng) (r : Nat) : Nat :=
  (Tab.find (d.m e).base r).getD (d.unwritten (8 * mKey e + r) 0 32)
def Dev.vb (d : Dev) (e : VEng) (r : Nat) : Nat :=
  (Tab.find (d.v e).base r).getD (d.unwritten (0x10000 + 8 * vKey e + r) 0 32)

def Dev.setMb (d : Dev) (e : MEng) (r v : Nat) : Dev :=
  d.setM e { d.m e with base := Tab.insert (d.m e).base r (v % 2 ^ 32) }
def Dev.setVb (d : Dev) (e : VEng) (r v : Nat) : Dev :=
  d.setV e { d.v e with base := Tab.insert (d.v e).base r (v % 2 ^ 32) }

/-! ## Bytes of an engine's memories -/

/-- Whether an access to offsets of one instance is good (R198, R200, R209, R353). -/
def Dev.checkOffs (d : Dev) (y space e : Nat) (offs : List Nat) : Access3 × Nat :=
  if d.fencedPlace y space e then (.fenced y, 0)
  else
    match offs.find? fun o => o ≥ spaceSize space || (d.run.inRun && !d.stallAllocated y space e o) with
    | some o => (.bounds, onchipAddr y space e o)
    | none => (.good, 0)

/-- Whether a byte of a drain queue belongs to a row that its drain has not passed yet (R150): `o` is its offset. -/
def Dev.undrained (d : Dev) (y v o : Nat) : Bool :=
  [2 * v, 2 * v + 1].any fun k =>
    (d.m ⟨Fin.ofNat 4 y, Fin.ofNat 16 k⟩).drains.any fun r =>
      r.f.dest = 0 && r.addr = o / 0x40000 && r.next < 256 && fmtBytes r.f.fmt.toNat (256 * r.next) ≤ o % 0x40000

/-- Bytes at offsets of one instance for a unit (R200, R209, R353), all zeros where any of them is out of bounds or fenced.
A byte that is still in flight reads as a free value (R26, R150), but in vector and scalar memory as the previous byte (R149,
R186). -/
def Dev.gather (d : Dev) (f : FaultInfo) (y space e : Nat) (offs : List Nat) : List Nat × Dev :=
  let zeros := offs.map fun _ => 0
  let addrs := offs.map (onchipAddr y space e)
  match d.checkOffs y space e offs with
  | (.fenced y, _) => (zeros, d.count .rOCM_FENCED_DROP [y] 1)
  | (.bounds, a) => (zeros, d.boundsFault f a)
  | (.good, _) =>
    if space = 3 ∨ space = 5 then
      let d1 := d.meet addrs
      (addrs.map d1.peek, d1)
    else
      let (bs, d1) := d.readAt addrs
      if space = 4 then
        ((List.range offs.length).map fun i =>
          if d.undrained y e (nth 0 offs i) then Config.freeWord (d1.nonce + i) % 256 else nth 0 bs i,
         { d1 with nonce := d1.nonce + offs.length })
      else (bs, d1)

/-- An engine reads its own memory at issue: its rows go to the banks by the engine's port (R203), and an error that comes up in the
word of the first byte is met (R212). -/
def Dev.fetch (d : Dev) (ecc : Ecc) (f : FaultInfo) (y space e : Nat) (offs : List Nat) : List Nat × Dev :=
  let d1 := match (d.checkOffs y space e offs).1 with
    | .good => ((d.present y space e false 0 0 false (rowsOf space offs)).2).strike ecc (onchipAddr y space e (offs.headD 0))
    | .fenced _ | .bounds => d
  d1.gather f y space e offs

/-- Port of an engine's own writes: the drain port of a tile memory, port 0 of any other memory (R202, R203). -/
def enginePort (space : Nat) : Nat := if space = 1 then 3 else 0

/-- Queue writes at offsets of one instance, checked now and made `lat` sc later (R92, R148, R353). In a tile memory they are
presented to the banks 4 sc before, which is the slack of their latency (R205). -/
def Dev.scatterTo (d : Dev) (f : FaultInfo) (y space e lat : Nat) (ws : List (Nat × Nat × Nat)) : Dev :=
  if ws.isEmpty then d
  else
    match d.checkOffs y space e (ws.map (·.1)) with
    | (.fenced y, _) => d.count .rOCM_FENCED_DROP [y] 1
    | (.bounds, a) => d.boundsFault f a
    | (.good, _) =>
      let slack := if space = 1 then 4 else 0
      d.deliver (lat - slack) (.offer y space e (enginePort space) slack (.scatter (ws.map fun w => (onchipAddr y space e w.1, w.2))))

/-! ## Layouts -/

/-- Position of an element in the swizzled layout of an array of `rows` rows (R117). -/
def swizzle (rows row col : Nat) : Nat :=
  (col / 32 * (rows / 32) + row / 32) * 1024 + 32 * (row % 32) + Nat.xor (col % 32) (row % 32)

/-- Byte offsets that hold element `q` of a packed array (R52), and the element from those bytes. -/
def elemOffs (fmt q : Nat) : List Nat :=
  let w := fmtBits fmt
  if w ≥ 8 then (List.range (w / 8)).map fun i => q * (w / 8) + i
  else if w = 6 then [q / 4 * 3, q / 4 * 3 + 1, q / 4 * 3 + 2]
  else [q / 2]
def elemFrom (fmt q : Nat) (bs : List Nat) : Nat :=
  let w := fmtBits fmt
  if w ≥ 8 then leNat bs
  else if w = 6 then leNat bs / 2 ^ (6 * (q % 4)) % 64
  else bs.getD 0 0 / 2 ^ (4 * (q % 2)) % 16

/-- Writes of element `q`: offset, mask and value of each byte it touches. -/
def elemWrites (fmt base q v : Nat) : List (Nat × Nat × Nat) :=
  let w := fmtBits fmt
  if w ≥ 8 then (List.range (w / 8)).map fun i => (base + q * (w / 8) + i, 255, v / 256 ^ i % 256)
  else if w = 6 then
    let m := 63 * 2 ^ (6 * (q % 4))
    let x := v % 64 * 2 ^ (6 * (q % 4))
    (List.range 3).filterMap fun i =>
      let mi := m / 256 ^ i % 256
      if mi = 0 then none else some (base + q / 4 * 3 + i, mi, x / 256 ^ i % 256)
  else [(base + q / 2, 15 * 2 ^ (4 * (q % 2)), v % 16 * 2 ^ (4 * (q % 2)))]

/-- Round up to a multiple of 64. -/
def up64 (n : Nat) : Nat := (n + 63) / 64 * 64

/-! ## Shapes -/

/-- Paddocks, rows, columns and bubble period (0: none) of a shape (Table 4-3). -/
structure Shape where
  paddocks : Nat
  rows : Nat
  cols : Nat
  period : Nat
  deriving DecidableEq, Repr

def shapeOf (c : Nat) : Shape :=
  if c = 1 then ⟨1, 128, 512, 99⟩ else if c = 2 then ⟨1, 64, 1024, 49⟩ else if c = 3 then ⟨1, 32, 2048, 24⟩
  else if c = 4 then ⟨1, 16, 4096, 15⟩ else if c = 5 then ⟨2, 256, 128, 0⟩ else if c = 6 then ⟨4, 128, 128, 99⟩
  else if c = 7 then ⟨16, 64, 64, 33⟩ else ⟨1, 256, 256, 0⟩

/-- Paddock, row and column of an element in the drain order of R82. -/
def Shape.place (s : Shape) (n : Nat) : Nat × Nat × Nat := (n / (s.rows * s.cols), n / s.cols % s.rows, n % s.cols)

/-- The cell of the physical grid behind (paddock, row, column): sub-blocks take the grid in drain order (log entry 30). -/
def Shape.physical (s : Shape) (p r c : Nat) : Nat × Nat :=
  let n := p * (s.rows / 16 * (s.cols / 16)) + r / 16 * (s.cols / 16) + c / 16
  (16 * (n / 16) + r % 16, 16 * (n % 16) + c % 16)

/-- Drain-order index of the cell at a physical row and column. -/
def Shape.cellAt (s : Shape) (pr pc : Nat) : Nat :=
  let n := pr / 16 * 16 + pc / 16
  let bc := s.cols / 16
  let br := s.rows / 16
  let p := n / (br * bc)
  let r := n / bc % br * 16 + pr % 16
  let c := n % bc * 16 + pc % 16
  p * (s.rows * s.cols) + r * s.cols + c

end Sys2Proof.Machine
end

