-- ==== Sys2Proof/Machine/VecOps.lean ====
section
/-! DEFINITION. What every vector instruction shares: register and mask reads (R140 to R142), operands (R146), masked results
(R142), flags (R145), and the arithmetic of the element types (R140, R143). -/
namespace Sys2Proof.Machine

/-! ## Registers -/

/-- Lanes of a vector register: what results have delivered so far, and no result still in flight (R26, R141, R142; log entry 42). -/
def Dev.vRead (d : Dev) (e : VEng) (v : Nat) : List Nat :=
  match Tab.find (d.v e).regs v with
  | some l => l
  | none => (List.range 1024).map fun i => d.unwritten (0x20000 + 64 * vKey e + v) i 32

/-- Bits of a mask register; m0 reads as all ones (R141). -/
def Dev.maskRead (d : Dev) (e : VEng) (m : Nat) : Nat :=
  if m = 0 then 2 ^ 2048 - 1
  else (Tab.find (d.v e).masks m).getD
    ((List.range 64).foldl (fun acc i => acc + d.unwritten (0x30000 + 16 * vKey e + m) i 32 * 2 ^ (32 * i)) 0)

/-! ## Element types -/

/-- Elements of a register (Table 7-1): 0 F32, 1 B16, 2 I32. -/
def tyCount (ty : Nat) : Nat := if ty = 1 then 2048 else 1024

/-- The elements of a register's lanes (Table 7-1). -/
def elemsOf (ty : Nat) (lanes : List Nat) : List Nat :=
  if ty = 1 then lanes.flatMap fun w => [w % 65536, w / 65536 % 65536] else lanes.map fun w => w % 2 ^ 32

/-- The value of a floating-point element. -/
def laneVal (ty w : Nat) : Val := if ty = 1 then bf16.decode w else val32 w

/-- Flags as bits of ENG_VSTAT: NV, OF, UF (R145). -/
def Flags.word (f : Flags) : Nat := b2n f.nv + 2 * b2n f.of + 4 * b2n f.uf

/-- An exact result rounded once into a floating-point type, with its flags (R54, R140, R145). -/
def finish (ty : Nat) (ops : List Val) (v : Val) : Nat × Nat :=
  if ty = 1 then
    let (w, f) := narrow 1 .rne false false v
    (w, Flags.word { f with nv := f.nv || (v.isNan && ops.all fun o => !o.isNan) })
  else (v.toFp32, (flags32 ops v).word)

/-- A source of a lane instruction: a register, a segment broadcast, an immediate (R146). -/
def Dev.operand (d : Dev) (e : VEng) (ty k reg ext : Nat) : List Nat :=
  if k = 2 then List.replicate (tyCount ty) (if ty = 1 then ext % 65536 else ext % 2 ^ 32)
  else if k = 1 then
    let els := elemsOf ty (d.vRead e (bits ext 5 0))
    (List.range (tyCount ty)).map fun i => nth 0 els (bits ext 16 6 + i / 2 ^ bits ext 20 17)
  else elemsOf ty (d.vRead e reg)

/-! ## Results -/

/-- Latency classes of Table 2-5. -/
def clsAlu : Nat := 3
def clsFull : Nat := 4
def clsQuarter : Nat := 5
def clsRed : Nat := 6
def clsMem : Nat := 7

/-- Set sticky flags when the result is written (R145). -/
def Dev.vFlags (d : Dev) (e : VEng) (lat flags : Nat) : Dev := if flags = 0 then d else d.deliver lat (.vstat e flags)

def orAll (l : List Nat) : Nat := l.foldl Nat.lor 0

/-- What a lane instruction reads: its mask and its sources. -/
structure LaneIn where
  mask : Nat
  a : List Nat
  b : List Nat
  c : List Nat

/-- Read the mask and the sources of a lane instruction; `n` sources are used. -/
def Dev.laneIn (d : Dev) (e : VEng) (f : LaneF) (n : Nat) : LaneIn :=
  let ty := f.ty.toNat
  let m := d.maskRead e f.mask.toNat
  let a := d.operand e ty 0 f.va.toNat 0
  let b := if n ≥ 2 then d.operand e ty f.bk.toNat f.vb.toNat f.ext1.toNat else []
  let c := if n ≥ 3 then d.operand e ty f.ck.toNat f.vc.toNat f.ext2.toNat else []
  ⟨m, a, b, c⟩

/-- Deliver results to the elements whose mask bit is 1 (R142). -/
def Dev.vDeliver (d : Dev) (e : VEng) (vd ty lat mask : Nat) (rs : List (Nat × Nat)) : Dev :=
  let vals := (List.range rs.length).map fun i => if bit mask i then some (nth (0, 0) rs i).1 else none
  let flags := orAll ((List.range rs.length).map fun i => if bit mask i then (nth (0, 0) rs i).2 else 0)
  (d.deliver lat (.vreg e vd (ty = 1) 0 vals)).vFlags e lat flags

/-- A lane instruction that computes element by element (R142, R143): `g` has a key for a free value, and the sources. -/
def Dev.lane (d : Dev) (e : VEng) (f : LaneF) (cls n : Nat) (g : Nat → Nat → Nat → Nat → Nat × Nat) : Dev :=
  let x := d.laneIn e f n
  let rs := (List.range (tyCount f.ty.toNat)).map fun i => g (d.nonce + i) (nth 0 x.a i) (nth 0 x.b i) (nth 0 x.c i)
  d.vDeliver e f.vd.toNat f.ty.toNat (d.latency cls) x.mask rs

/-- The same, for instructions that may give free values: the counter moves past the keys (log entry 9). -/
def Dev.laneFree (d : Dev) (e : VEng) (f : LaneF) (cls n : Nat) (g : Nat → Nat → Nat → Nat → Nat × Nat) : Dev :=
  let d1 := d.lane e f cls n g
  { d1 with nonce := d1.nonce + 2048 }

/-- The next state of a vector instruction: it counts in ENG_VISSUE (R158). -/
def State.vUpd (s : State) (e : VEng) (g : Dev → Dev) : Host.Outcome State Fault Refusal :=
  s.upd fun _ d => g (d.count .rENG_VISSUE [e.yard.val, e.idx.val] 1)

/-! ## Element arithmetic -/

def wrap32 (i : Int) : Nat := wrap 32 i

/-- a + b, a − b, a × b (R54, R140). -/
def addElem (ty a b : Nat) : Nat × Nat :=
  if ty = 2 then ((a + b) % 2 ^ 32, 0) else finish ty [laneVal ty a, laneVal ty b] ((laneVal ty a).add (laneVal ty b))
def subElem (ty a b : Nat) : Nat × Nat :=
  if ty = 2 then (wrap32 (a - b), 0) else finish ty [laneVal ty a, laneVal ty b] ((laneVal ty a).add (laneVal ty b).neg)
def mulElem (ty a b : Nat) : Nat × Nat :=
  if ty = 2 then (a * b % 2 ^ 32, 0) else finish ty [laneVal ty a, laneVal ty b] ((laneVal ty a).mul (laneVal ty b))
/-- a × b + c, one rounding. -/
def fmaElem (ty a b c : Nat) : Nat × Nat :=
  let x := laneVal ty a
  let y := laneVal ty b
  let z := laneVal ty c
  let r := finish ty [x, y, z] ((x.mul y).add z)
  if badProduct x y then (r.1, Nat.lor r.2 1) else r

/-- FP32 encoding of a floating-point element. -/
def toWide (ty w : Nat) : Nat := if ty = 1 then widen 1 w else w
/-- Back to the type, where the value is one of the type's. -/
def fromWide (ty w : Nat) : Nat := if ty = 1 then (narrow 1 .rne false false (val32 w)).1 else w

/-- The larger and the smaller by the ordering of R54. -/
def maxElem (ty a b : Nat) : Nat :=
  if ty = 2 then (if signed 32 a ≥ signed 32 b then a else b) else fromWide ty (fmax (toWide ty a) (toWide ty b))
def minElem (ty a b : Nat) : Nat :=
  if ty = 2 then (if signed 32 a ≤ signed 32 b then a else b) else fromWide ty (fmin (toWide ty a) (toWide ty b))

/-- |a| and −a: the sign bit only, NaN canonical; for −2³¹ the spec states no result (log entry 32). -/
def signElem (neg : Bool) (ty key a : Nat) : Nat :=
  if ty = 2 then
    if a = 2 ^ 31 then Config.freeWord key % 2 ^ 32
    else if neg then wrap32 (-(signed 32 a)) else (signed 32 a).natAbs
  else
    let s := if ty = 1 then 15 else 31
    if (laneVal ty a).isNan then (if ty = 1 then 0x7FC0 else 0x7FC00000)
    else if neg then Nat.xor a (2 ^ s) else a % 2 ^ s

/-- Comparison of VCMP (IEEE 754): 0 EQ, 1 NE, 2 LT, 3 LE, 4 UN. -/
def cmpElem (sub ty a b : Nat) : Bool :=
  let key (w : Nat) : Int :=
    if ty = 2 then signed 32 w else if (laneVal ty w).isZero then 0 else orderKey (toWide ty w)
  let un := ty ≠ 2 && ((laneVal ty a).isNan || (laneVal ty b).isNan)
  if sub = 4 then un
  else if un then sub = 1
  else if sub = 0 then key a = key b else if sub = 1 then key a ≠ key b
  else if sub = 2 then key a < key b else key a ≤ key b

/-- Shifts of VSHL (0), VSHR (1) and VSRA (2); a count of 32 or more has no stated result (log entry 32). -/
def shiftElem (k key a b : Nat) : Nat :=
  if b ≥ 32 then Config.freeWord key % 2 ^ 32
  else if k = 0 then a * 2 ^ b % 2 ^ 32 else if k = 1 then a / 2 ^ b else wrap32 (signed 32 a / (2 ^ b : Nat))

end Sys2Proof.Machine
end

