-- ==== Sys2Proof/Machine/VecSpecial.lean ====
section
/-! DEFINITION. Transcendental instructions with their exact cases and special values (R144, Table 7-3), and the soft-maximum
instructions (R154). Flag bits: 0 NV, 1 OF, 2 UF, 3 DZ (R145). -/
namespace Sys2Proof.Machine

def nan32 : Nat := 0x7FC00000
def inf32 (neg : Bool) : Nat := if neg then 0xFF800000 else 0x7F800000

/-- An approximated result with its range flags: overflow, and a nonzero result rounded to zero (Table 7-3). -/
def approxRes (fn bound key : Nat) (v : Val) : Nat × Nat :=
  let w := approxTo fn bound key v
  (w, if w % 2 ^ 31 = 0x7F800000 then 2 else if w % 2 ^ 31 = 0 && !v.isZero then 4 else 0)

/-- The integer a value is, if it is one. -/
def Val.integer (v : Val) : Option Int :=
  match v with
  | .fin n m e =>
    let q : Option Nat :=
      if e ≥ 0 then some (m * 2 ^ e.toNat) else if m % 2 ^ (-e).toNat = 0 then some (m / 2 ^ (-e).toNat) else none
    q.map fun k => if n then -(k : Int) else (k : Int)
  | .nan | .inf _ => none

/-- VEXP2. -/
def fExp2 (w : Nat) : Nat × Nat :=
  let v := val32 w
  match v with
  | .nan => (nan32, 0)
  | .inf n => (if n then 0 else inf32 false, 0)
  | .fin _ _ _ =>
    match (if v.log2 < 9 ∨ v.isZero then v.integer else none) with
    | some k => if -149 ≤ k ∧ k ≤ 127 then ((Val.fin false 1 k).toFp32, 0) else approxRes 32 1 w (fxExp2 (toFx v))
    | none => approxRes 32 1 w (fxExp2 (toFx v))

/-- VRCP. -/
def fRcp (w : Nat) : Nat × Nat :=
  let v := val32 w
  match v with
  | .nan => (nan32, 0)
  | .inf n => (if n then 2 ^ 31 else 0, 0)
  | .fin n _ _ =>
    if v.isZero then (inf32 n, 8)
    else
      let r := (Val.fin false 1 0).div v
      match v.pow2 with
      | some k => if -127 ≤ k ∧ k ≤ 149 then ((Val.fin n 1 (-k)).toFp32, 0) else approxRes 33 1 w r
      | none => approxRes 33 1 w r

/-- VLOG2. -/
def fLog2 (w : Nat) : Nat × Nat :=
  let v := val32 w
  match v with
  | .nan => (nan32, 0)
  | .inf n => if n then (nan32, 1) else (inf32 false, 0)
  | .fin n _ _ =>
    if v.isZero then (inf32 true, 8)
    else if n then (nan32, 1)
    else
      match v.pow2 with
      | some k => ((Val.ofInt k).toFp32, 0)
      | none => approxRes 34 2 w (ofFx (fxLog2 v))

/-- VRSQRT. -/
def fRsqrt (w : Nat) : Nat × Nat :=
  let v := val32 w
  match v with
  | .nan => (nan32, 0)
  | .inf n => if n then (nan32, 1) else (0, 0)
  | .fin n _ _ =>
    if v.isZero then (inf32 n, 8)
    else if n then (nan32, 1)
    else
      match v.pow2 with
      | some k => if k % 2 = 0 then ((Val.fin false 1 (-(k / 2))).toFp32, 0) else approxRes 35 2 w (rsqrtVal v)
      | none => approxRes 35 2 w (rsqrtVal v)

/-- VTANH, VSIG and VERF. -/
def fTanh (w : Nat) : Nat × Nat :=
  let v := val32 w
  match v with
  | .nan => (nan32, 0)
  | .inf n => (if n then 0xBF800000 else 0x3F800000, 0)
  | .fin n _ _ => if v.isZero then (w, 0) else approxRes 36 2 w (ofFxS n (fxTanh (toFx v)))
def fSig (w : Nat) : Nat × Nat :=
  let v := val32 w
  match v with
  | .nan => (nan32, 0)
  | .inf n => (if n then 0 else 0x3F800000, 0)
  | .fin _ _ _ => if v.isZero then (0x3F000000, 0) else approxRes 37 2 w (ofFxS false (fxSig (toFx v)))
def fErf (w : Nat) : Nat × Nat :=
  let v := val32 w
  match v with
  | .nan => (nan32, 0)
  | .inf n => (if n then 0xBF800000 else 0x3F800000, 0)
  | .fin n _ _ => if v.isZero then (w, 0) else approxRes 38 2 w (ofFxS n (fxErf (toFx v)))

/-- In B16 a function is computed as in F32 and then narrowed (R140). -/
def special (g : Nat → Nat × Nat) (ty w : Nat) : Nat × Nat :=
  if ty = 1 then
    let r := g (widen 1 w)
    let n := narrow 1 .rne false false (val32 r.1)
    (n.1, Nat.lor r.2 n.2.word)
  else g w

def execVexp2 (e : VEng) (f : LaneF) (s : State) : Host.Outcome State Fault Refusal :=
  s.vUpd e fun d => d.lane e f clsFull 1 fun _ a _ _ => special fExp2 f.ty.toNat a
def execVrcp (e : VEng) (f : LaneF) (s : State) : Host.Outcome State Fault Refusal :=
  s.vUpd e fun d => d.lane e f clsFull 1 fun _ a _ _ => special fRcp f.ty.toNat a
def execVlog2 (e : VEng) (f : LaneF) (s : State) : Host.Outcome State Fault Refusal :=
  s.vUpd e fun d => d.lane e f clsQuarter 1 fun _ a _ _ => special fLog2 f.ty.toNat a
def execVrsqrt (e : VEng) (f : LaneF) (s : State) : Host.Outcome State Fault Refusal :=
  s.vUpd e fun d => d.lane e f clsQuarter 1 fun _ a _ _ => special fRsqrt f.ty.toNat a
def execVtanh (e : VEng) (f : LaneF) (s : State) : Host.Outcome State Fault Refusal :=
  s.vUpd e fun d => d.lane e f clsQuarter 1 fun _ a _ _ => special fTanh f.ty.toNat a
def execVsig (e : VEng) (f : LaneF) (s : State) : Host.Outcome State Fault Refusal :=
  s.vUpd e fun d => d.lane e f clsQuarter 1 fun _ a _ _ => special fSig f.ty.toNat a
def execVerf (e : VEng) (f : LaneF) (s : State) : Host.Outcome State Fault Refusal :=
  s.vUpd e fun d => d.lane e f clsQuarter 1 fun _ a _ _ => special fErf f.ty.toNat a

/-! ## Soft-maximum (Table 7-7) -/

/-- exp2 of fma(x, c, −m), with one rounding before the exp2. -/
def expStep (x c m : Nat) : Nat × Nat :=
  let t := ((val32 x).mul (val32 c)).add (val32 m).neg
  let r := fExp2 t.toFp32
  (r.1, Nat.lor (flags32 [val32 x, val32 c, val32 m] t).word r.2)

/-- VSMX of one element; `on`: its row mask bit. -/
def smx (on : Bool) (x m c : Nat) : Nat × Nat :=
  if (val32 m).isNan then (nan32, 0)
  else if !on then (0, 0)
  else if m = inf32 false then (if x = inf32 false then 0x3F800000 else 0, 0)
  else if m = inf32 true then (0, 0)
  else expStep x c m

/-- VSMNORM of one element. -/
def smnorm (p t : Nat) : Nat × Nat :=
  if (val32 t).isNan then (nan32, 0)
  else if t = 0 then (0, 0)
  else
    let r := fRcp t
    let v := (val32 p).mul (val32 r.1)
    (v.toFp32, Nat.lor r.2 (flags32 [val32 p, val32 r.1] v).word)

/-- min(s, 65,535) as an integer; a sum that is not a count has no stated one (log entry 32). -/
def countOf (key t : Nat) : Nat :=
  match val32 t with
  | .inf false => 65535
  | v =>
    match v.integer with
    | some k => if k ≥ 0 then min k.toNat 65535 else Config.freeWord key % 65536
    | none =>
      match v with
      | .fin false m e => if m * 2 ^ e.toNat ≥ 65535 * 2 ^ (-e).toNat then 65535 else Config.freeWord key % 65536
      | _ => Config.freeWord key % 65536

/-- VSMSTAT of one lane: L, the row word, the flags. -/
def smstat (key m t : Nat) : Nat × Nat × Nat :=
  if (val32 m).isNan then (nan32, 3, 0)
  else if m = inf32 false then (inf32 false, 2 + countOf key t * 65536, 0)
  else if m = inf32 true ∨ t = 0 then (inf32 true, 1, 0)
  else
    let l := fLog2 t
    let v := (val32 m).add (val32 l.1)
    (v.toFp32, 0, Nat.lor l.2 (flags32 [val32 m, val32 l.1] v).word)

/-- VSMREC of one element: a row word with another state has no stated result (log entry 32). -/
def smrec (key : Nat) (on : Bool) (x l row c : Nat) : Nat × Nat :=
  let st := row % 256
  if st = 3 then (nan32, 0)
  else if !on then (0, 0)
  else if st = 1 then (0, 0)
  else if st = 2 then
    if x = inf32 false then fRcp (Val.ofInt ((row / 65536 % 65536 : Nat) : Int)).toFp32 else (0, 0)
  else if st = 0 then expStep x c l
  else (Config.freeWord key % 2 ^ 32, 0)

/-- VSMX: the mask is the row mask, and every element is written (R154). -/
def execVsmx (e : VEng) (f : LaneF) (s : State) : Host.Outcome State Fault Refusal :=
  s.vUpd e fun d =>
    let x := d.laneIn e f 3
    d.vDeliver e f.vd.toNat 0 (d.latency clsFull) (2 ^ 2048 - 1)
      ((List.range 1024).map fun i => smx (bit x.mask i) (nth 0 x.a i) (nth 0 x.b i) (nth 0 x.c i))

def execVsmnorm (e : VEng) (f : LaneF) (s : State) : Host.Outcome State Fault Refusal :=
  s.vUpd e fun d => d.lane e f clsFull 2 fun _ p t _ => smnorm p t

/-- VSMSTAT writes L to v`d` and the row word to v`d` + 1. -/
def execVsmstat (e : VEng) (f : LaneF) (s : State) : Host.Outcome State Fault Refusal :=
  s.vUpd e fun d =>
    let x := d.laneIn e f 2
    let rs := (List.range 1024).map fun i => smstat (d.nonce + i) (nth 0 x.a i) (nth 0 x.b i)
    let d2 := { d with nonce := d.nonce + 1024 }
    let lat := d2.latency clsQuarter
    (d2.vDeliver e f.vd.toNat 0 lat x.mask (rs.map fun r => (r.1, r.2.2))).vDeliver e (f.vd.toNat + 1) 2 lat x.mask
      (rs.map fun r => (r.2.1, 0))

/-- VSMREC: L is a broadcast of an even register, the row word lies at the same indices of the next one. -/
def execVsmrec (e : VEng) (f : LaneF) (s : State) : Host.Outcome State Fault Refusal :=
  s.vUpd e fun d =>
    let x := d.laneIn e f 3
    let ext := f.ext1.toNat
    let w := d.operand e 2 1 0 (putBits ext 5 0 (bits ext 5 0 + 1))
    let rs := (List.range 1024).map fun i =>
      smrec (d.nonce + i) (bit x.mask i) (nth 0 x.a i) (nth 0 x.b i) (nth 0 w i) (nth 0 x.c i)
    let d3 := { d with nonce := d.nonce + 1024 }
    d3.vDeliver e f.vd.toNat 0 (d3.latency clsFull) (2 ^ 2048 - 1) rs

end Sys2Proof.Machine
end

