-- ==== Sys2Proof/Machine/Update.lean ====
section
/-! DEFINITION. The update units (08): the recurrence (R162 to R166), commands, queues and lanes (R167 to R171), sparse lists
(R172, R173), the working copy (R174) and its generation (R135 to R138). -/
namespace Sys2Proof.Machine

/-! ## Groups -/

/-- A group's configuration (Table 8-13), and which coefficients its preset uses (Table 8-4). -/
structure GroupCfg where
  f1 : Nat
  f2 : Nat
  h1 : Bool
  h2 : Nat
  s1 : Bool
  s2 : Bool
  bf : Bool
  nf : Bool
  used : List Nat
  deriving DecidableEq, Repr

/-- Coefficients that a preset may use (R166): LR, GSCALE, GCLIP and DCLIP always, WD but in ADAM, and those of Table 8-4. -/
def presetCoefs (p : Nat) : List Nat :=
  if p = 15 then List.range 15
  else [0, 2, 3, 4] ++ (if p = 6 then [] else [1]) ++
    (if p = 1 then [9] else if p = 2 then [5, 6, 10] else if p = 3 then [5, 6, 9, 10]
     else if p = 4 ∨ p = 5 then [6, 7, 8, 10, 14] else if p = 6 ∨ p = 7 then [5, 6, 7, 8, 10, 14]
     else if p = 8 then [5, 6, 11, 12, 13] else [])

/-- The function choices and states of a preset as UPD_GCFG shows them: F1, F2, H1, H2, S1_EN, S2_EN (Table 8-4). -/
def presetWord (p w : Nat) : Nat :=
  let pack (f1 f2 h1 h2 s1 s2 : Nat) : Nat := f1 * 2 ^ 58 + f2 * 2 ^ 56 + h1 * 2 ^ 55 + h2 * 2 ^ 53 + s1 * 2 ^ 52 + s2 * 2 ^ 51
  let keep := bits w 63 60 * 2 ^ 60 + bits w 50 49 * 2 ^ 49
  if p = 15 then w
  else if p = 2 ∨ p = 3 then keep + pack 1 0 1 0 1 0
  else if p = 4 ∨ p = 5 then keep + pack 1 2 1 1 0 1
  else if p = 6 ∨ p = 7 then keep + pack 1 2 1 1 1 1
  else if p = 8 then keep + pack 1 0 0 0 1 0
  else keep

def groupCfg (w : Nat) : GroupCfg :=
  let v := presetWord (bits w 63 60) w
  { f1 := bits v 59 58, f2 := bits v 57 56, h1 := bit v 55, h2 := bits v 54 53, s1 := bit v 52, s2 := bit v 51, bf := bit v 50,
    nf := bit v 49, used := presetCoefs (bits w 63 60) }

/-! ## The recurrence -/

/-- A value with the flags gathered on the way: bits of UPD_GSTAT (R164). -/
abbrev Fl := Nat × Nat

def flMul (a b : Fl) : Fl := let r := mulElem 0 a.1 b.1; (r.1, orAll [a.2, b.2, r.2])
def flFma (a b c : Fl) : Fl := let r := fmaElem 0 a.1 b.1 c.1; (r.1, orAll [a.2, b.2, c.2, r.2])
def flAdd (a b : Fl) : Fl := let r := addElem 0 a.1 b.1; (r.1, orAll [a.2, b.2, r.2])

/-- Selectable functions f1 and f2 (R163). -/
def flSquare (k : Nat) (x : Fl) : Fl :=
  if k = 0 then (0, x.2) else if k = 1 then x else if k = 2 then flMul x x else (signElem false 0 0 x.1, x.2)

/-- h2 with the special values of Table 8-2. -/
def flRoot (k : Nat) (x : Fl) : Fl :=
  if k = 0 then (0x3F800000, x.2)
  else if (val32 x.1).isZero then (0x7F7FFFFF, Nat.lor x.2 8)
  else let r := if k = 1 then fRsqrt x.1 else fRcp x.1; (r.1, Nat.lor x.2 r.2)

/-- sign(x) (R163). -/
def flSign (x : Fl) : Fl :=
  let v := val32 x.1
  (if v.isNan then 0x7FC00000 else if v.isZero then 0 else if v.negative then 0xBF800000 else 0x3F800000, x.2)

/-- clip(x, b), setting flag `bitNo` when it changes x (R163). -/
def flClip (x : Fl) (b bitNo : Nat) : Fl :=
  if cmpElem 2 0 b (x.1 % 2 ^ 31) then
    let v := b % 2 ^ 31 + x.1 / 2 ^ 31 * 2 ^ 31
    if v = x.1 then x else (v, Nat.lor x.2 (2 ^ bitNo))
  else x

/-- What one parameter gives: master weight, states, flags (R162). Terms whose coefficient the preset does not use are skipped. -/
structure ParamOut where
  w : Nat
  u1 : Nat
  u2 : Nat
  flags : Nat

/-- fma(a, x, b × y), with the terms that the preset uses. -/
def flPair (useA useB : Bool) (a : Nat) (x : Fl) (b : Nat) (y : Fl) : Fl :=
  match useA, useB with
  | true, true => flFma (a, 0) x (flMul (b, 0) y)
  | true, false => flMul (a, 0) x
  | false, true => flMul (b, 0) y
  | false, false => (0, Nat.lor x.2 y.2)

/-- The recurrence of R162. `g` is the widened gradient; `s1` and `s2` read +0 where a state is disabled. -/
def recurrence (c : GroupCfg) (co : List Nat) (g w s1 s2 : Nat) : ParamOut :=
  let k (i : Nat) : Nat := nth 0 co i
  let u (i : Nat) : Bool := c.used.contains i
  let x0 := flMul (g, 0) (k 2, 0)
  let x := if c.nf && ((val32 x0.1).isNan || (val32 x0.1).isInf) then (0, Nat.lor x0.2 64) else x0
  let gt := flClip x (k 3) 4
  let u1 := flPair (u 5) (u 6) (k 5) (if c.s1 then s1 else 0, 0) (k 6) (flSquare c.f1 gt)
  let u2 := flPair (u 7) (u 8) (k 7) (if c.s2 then s2 else 0, 0) (k 8) (flSquare c.f2 gt)
  let q := flRoot c.h2 (if u 14 then flAdd u2 (k 14, 0) else u2)
  let p := if c.h1 then flMul u1 q else q
  let cc := flPair (u 12) (u 13) (k 12) u1 (k 13) gt
  let d1 := flPair (u 9) (u 10) (k 9) gt (k 10) p
  let d2 := if u 11 then flFma (k 11, 0) (flSign cc) d1 else d1
  let d3 := if u 1 then flFma (k 1, 0) (w, 0) d2 else d2
  let d4 := flClip d3 (k 4) 5
  let w' := flFma (Nat.xor (k 0) (2 ^ 31), 0) d4 (w, 0)
  { w := w'.1, u1 := u1.1, u2 := u2.1, flags := orAll [w'.2, u1.2, u2.2] }

/-! ## Units -/

def Dev.unit (d : Dev) (u : Nat) : UpdUnit := Tab.get {} d.upd u
def Dev.setUnit (d : Dev) (u : Nat) (x : UpdUnit) : Dev := { d with upd := Tab.put {} d.upd u x }

/-- The fault of an access a unit makes (R353). -/
def updFault (u : Nat) : FaultInfo :=
  { code := 9, detail := 3, yard := u / 5, kind := 3, unit := u, stops := some (updUnit u) }

def Dev.shard (d : Dev) (n : Nat) : Option ShardRec := d.sched.image.bind fun im => im.shards.find? fun s => s.shard = n

/-- An update command completes: it is counted and reported (R171). -/
def Dev.updDone (d : Dev) (u : Nat) (c : UpdCmd) : Dev := (d.count .rUPD_CMDS [u] 1).report c.item

/-- Whether an open injection descriptor expects a tag of a region (R137, R138). -/
def Dev.expected (d : Dev) (region gen : Nat) : Bool := d.inject.any fun b => b.desc.inj.region = region && b.desc.inj.gen = gen

/-- Coefficient `j` of a group, and its write (R161). -/
def Dev.coef (d : Dev) (u g j : Nat) : Nat := d.getF (if j % 2 = 0 then fUPD_COEF_COEF_LO else fUPD_COEF_COEF_HI) [u, g, j / 2]
def Dev.setCoef (d : Dev) (u g j v : Nat) : Dev :=
  d.setF (if j % 2 = 0 then fUPD_COEF_COEF_LO else fUPD_COEF_COEF_HI) [u, g, j / 2] v

/-- SETCOEF writes its values into every group it names (Table 8-6). -/
def Dev.applyCoefs (d : Dev) (u : Nat) (c : UpdCmd) : Dev :=
  let js := (List.range 16).filter fun j => bit c.cmask j
  (List.range (c.gcount + 1)).foldl (fun d g =>
    (List.range js.length).foldl (fun d i => d.setCoef u ((c.group + g) % 256) (nth 0 js i) (nth 0 c.vals i)) d) d

/-- UPDATE_COMMAND_ARRIVAL (R168): the oldest command of an S engine to a unit enters the unit, unless it finds the queue or the
release list full and waits. -/
def execUpdateCommandArrival (unit : Fin 20) (e : SEng) (s : State) : Host.Outcome State Fault Refusal :=
  s.upd fun _ d =>
    let u := unit.val
    match d.updSent.find? fun m => m.1 = u && m.2.1 = 4 * e.yard.val + e.idx.val with
    | none => d
    | some m =>
      let c := m.2.2
      let x := d.unit u
      if x.queue.length ≥ 64 ∨ (c.opc = 4 ∧ x.releases.length ≥ 16) then d
      else
        let d1 := { d with updSent := d.updSent.erase m }
        if c.opc = 3 then ((d1.applyCoefs u c).count .rUPD_SETCOEF_CNT [u] 1).updDone u c
        else if c.opc = 4 then d1.setUnit u { x with releases := x.releases ++ [c] }
        else d1.setUnit u { x with queue := x.queue ++ [c] }

/-! ## Starting a command -/

/-- A fault of a unit, recorded (Tables 8-11, 8-12) and raised: `cause` 1 VERSION_FAULT, 2 INDEX_ORDER, of which the first has its list
position recorded. -/
def Dev.unitFault (d : Dev) (u cause : Nat) (c : UpdCmd) (found pos value : Nat) : Dev :=
  let d1 :=
    if d.flag fUPD_FAULT_VALID [u] then d.setF fUPD_FAULT_MORE [u] 1
    else
      let d0 := d.setWord .rUPD_FAULT [u] (BitVec.ofNat 64
        (2 ^ 63 + cause * 2 ^ 60 + c.opc % 16 * 2 ^ 56 + c.group % 256 * 2 ^ 48 + c.shard % 65536 * 2 ^ 32 + found % 65536 * 2 ^ 16
          + c.gen % 65536))
      d0
  let d1 := if cause = 2 ∧ (d1.word .rUPD_FAULT_POS [u]).toNat = 0 then
      d1.setWord .rUPD_FAULT_POS [u] (BitVec.ofNat 64 (pos % 2 ^ 32 * 2 ^ 32 + value % 2 ^ 32)) else d1
  let d2 := if d1.flag fUPD_CTL_FAULT_EVENT [u] then d1.fire 6 u else d1
  d2.stopFault { code := if cause = 1 then 7 else 8, yard := u / 5, kind := 3, unit := u, stops := some (updUnit u) }

/-- Position and value of the first index that breaks the order of R172. -/
def badIndex (rows : Nat) : Nat → Option Nat → List Nat → Option (Nat × Nat)
  | _, _, [] => none
  | n, prev, i :: is =>
    let ok := i < rows && (match prev with | some p => decide (p < i) | none => true)
    if ok then badIndex rows (n + 1) (some i) is else some (n, i)

/-- Whether bytes lie wholly in the memory of a unit's own controller (R21, R170). -/
def Dev.inController (d : Dev) (u a len : Nat) : Bool :=
  d.populated a len &&
    match locate a with
    | .hbm s off => stackCtl s = u && off / 2 ^ 30 = (off + len - 1) / 2 ^ 30
    | .ddr c _ => chanCtl c = u
    | _ => false

/-- Width of a gradient element, and elements a command consumes (R170). -/
def UpdCmd.gradWidth (c : UpdCmd) : Nat := if bit c.flags 2 then 2 else 4
def UpdCmd.total (c : UpdCmd) (s : ShardRec) : Nat := if c.opc = 2 then c.nidx * s.rowlen else s.count

/-- NEW_GEN is newer than CUR (R135). -/
def newer (a b : Nat) : Bool :=
  let k := (a + 65536 - b % 65536) % 65536
  1 ≤ k && k ≤ 32767

/-- The index list of a sparse command (R172). -/
def Dev.indexList (d : Dev) (u : Nat) (c : UpdCmd) : List Nat × Dev :=
  if c.nidx = 0 then ([], d)
  else
  let (bs, d1) := d.load (updFault u) (onchipAddr (u / 5) 0 0 c.ioff) (4 * c.nidx)
  ((List.range c.nidx).map fun i => leNat ((bs.drop (4 * i)).take 4), d1)

/-- Whether a sparse command's list runs out of the yard store (R172, R353): its first byte. -/
def UpdCmd.listOut (c : UpdCmd) (u : Nat) : Option Nat :=
  if c.opc = 2 ∧ c.nidx ≠ 0 ∧ c.ioff + 4 * c.nidx > spaceSize 0 then some (onchipAddr (u / 5) 0 0 0 + c.ioff) else none

/-- Whether a YS or MEM gradient runs out of its space (R170, R353): its first byte. -/
def Dev.updOut (d : Dev) (u : Nat) (c : UpdCmd) (s : ShardRec) : Option Nat :=
  let y := u / 5
  let len := c.total s * c.gradWidth
  let src := bits c.flags 1 0
  if src = 1 ∧ len ≠ 0 ∧
      !(match locate c.gaddr with | .onchip y' sp _ off => y' = y && sp = 0 && off + len ≤ spaceSize 0 | _ => false) then
    some c.gaddr
  else if src = 2 ∧ len ≠ 0 ∧ !d.inController u c.gaddr len then some c.gaddr
  else none

/-- The update lane starts the command at the head of its queue (R135, R136, R138, R169), a sparse one once its list has passed the
validation pass (R172). A unit that has stopped on a fault starts none (R352). -/
def Dev.startUpdate (d : Dev) (u : Nat) : Dev :=
  if d.isStopped (updUnit u) then d else
  let x := d.unit u
  match x.running, x.queue with
  | none, c :: rest =>
    match d.shard c.shard with
    | none => d
    | some s =>
      let d1 := d.setUnit u { x with queue := rest }
      match c.listOut u with
      | some a => d1.boundsFault (updFault u) a
      | none =>
        let (rows, d2) := if c.opc = 2 then d1.indexList u c else ([], d1)
        match badIndex (s.count / max 1 s.rowlen) 0 none rows, d.updOut u c s with
        | some (pos, value), _ => d2.unitFault u 2 c 0 pos value
        | none, some a => d2.boundsFault (updFault u) a
        | none, none =>
          let coef := (List.range 16).map fun j => d.coef u c.group j
          let go (d : Dev) : Dev :=
            ((d.setUnit u { x with queue := rest, running := some { cmd := c, coef := coef, rows := rows } }).setF
              fUPD_STAT_SHARD [u] c.shard).setF fUPD_STAT_PROGRESS [u] 0
          match (if s.hasRegion then d.region s.region else none) with
          | none => go d2
          | some r =>
            let t := d.tag s.region
            if !r.stashed && d.expected s.region t.cur then d
            else if !newer c.gen t.cur ∨ t.pendingValid ∨ (r.stashed ∧ t.stashValid) then d2.unitFault u 1 c t.cur 0 0
            else
              go { d2 with tags := Tab.put {} d2.tags s.region { t with pending := c.gen % 65536, pendingValid := true } }
  | _, _ => d

def execUpdateStart (unit : Fin 20) (s : State) : Host.Outcome State Fault Refusal := s.upd fun _ d => d.startUpdate unit.val

/-! ## Parameters -/

/-- Where the working copy of a shard is written: the region's base and the slot's offset (R136, R138, R174). -/
def Dev.copyBase (d : Dev) (s : ShardRec) : Option (Nat × Nat) :=
  (if s.hasRegion then d.region s.region else none).map fun r =>
    let t := d.tag s.region
    if r.stashed then (r.base + (1 - t.slot) * r.slotOff, r.base + t.slot * r.slotOff) else (r.base, r.base)

/-- A unit's access to its memory is counted as the requests it makes, each within one aligned KiB (R220, R222): when each was presented
and served the spec does not say. -/
def Dev.countUnit (d : Dev) (a n : Nat) (write : Bool) : Dev :=
  (blockCuts 1024 a n).foldl (fun d c =>
    { d with nonce := d.nonce + 1 }.countTier (a + c.1) c.2 (Config.freeWord d.nonce % 2 ^ 32) write) d

/-- Copy absent rows `a` up to `b` of a STASHED region unchanged (R173). -/
def Dev.copyRows (d : Dev) (u : Nat) (s : ShardRec) (a b : Nat) : Dev :=
  match (if s.hasRegion then d.region s.region else none), d.copyBase s with
  | some r, some (to_, from_) =>
    if r.stashed ∧ a < b then
      let n := 2 * s.rowlen * (b - a)
      let o := 2 * s.rowlen * a
      let (bs, d1) := d.load (updFault u) (from_ + o) n
      ((d1.store (updFault u) (to_ + o) bs).countUnit (from_ + o) n false).countUnit (to_ + o) n true
    else d
  | _, _ => d

/-- Values of `n` elements from bytes. -/
def elems32 (w n : Nat) (bs : List Nat) : List Nat := (List.range n).map fun i => leNat ((bs.drop (w * i)).take w)

/-- Bytes of gradient in hand for a command from element `p` on, and the port without them (R170). -/
def Dev.gradBytes (d : Dev) (u : Nat) (c : UpdCmd) (p n : Nat) : List Nat × Dev :=
  let w := c.gradWidth
  if bits c.flags 1 0 = 0 then
    let q := Tab.get [] d.gradPort u
    (q.take (n * w), { d with gradPort := Tab.put [] d.gradPort u (q.drop (n * w)) })
  else
    let (bs, d1) := d.load (updFault u) (c.gaddr + p * w) (n * w)
    (bs, if bits c.flags 1 0 = 2 then d1.countUnit (c.gaddr + p * w) (n * w) false else d1)

/-- Set bits of UPD_GSTAT; the first DIV0 of a group in a run is a trigger (R164, R362). -/
def Dev.groupStat (d : Dev) (u g flags : Nat) : Dev :=
  if flags = 0 then d
  else
    let d1 := d.setWord .rUPD_GSTAT [u, g] (BitVec.ofNat 64 (Nat.lor (d.word .rUPD_GSTAT [u, g]).toNat (flags % 128)))
    let x := d1.unit u
    if bit flags 3 ∧ !x.div0.contains g then
      let d2 := d1.setUnit u { x with div0 := g :: x.div0 }
      if d2.flag fUPD_CTL_DIV0_EVENT [u] then d2.fire 7 u else d2
    else d1

/-- Process `n` parameters that lie in one row, from the command's parameter `run.done` (R162, R174). -/
def Dev.updSegment (d : Dev) (u : Nat) (run : UpdRun) (s : ShardRec) (n : Nat) : Dev :=
  let c := run.cmd
  let cfg := groupCfg (d.word .rUPD_GCFG [u, c.group]).toNat
  let rl := max 1 s.rowlen
  let at_ := run.done / rl
  let row := if c.opc = 2 then nth 0 run.rows at_ else at_
  let col := run.done % rl
  let i := row * rl + col
  let f := updFault u
  let sw := if cfg.bf then 2 else 4
  let d0 := if c.opc = 2 ∧ col = 0 then
      d.copyRows u s (if at_ = 0 then 0 else nth 0 run.rows (at_ - 1) + 1) row else d
  let (gb, d1) := d0.gradBytes u c run.done n
  let (wb, d2) := d1.load f (s.wbase + 4 * i) (4 * n)
  let (b1, d3) := if cfg.s1 then d2.load f (s.s1base + sw * i) (sw * n) else ([], d2)
  let (b2, d4) := if cfg.s2 then d3.load f (s.s2base + sw * i) (sw * n) else ([], d3)
  let wide (w v : Nat) : Nat := if w = 2 then widen 1 v else v
  let gs := (elems32 c.gradWidth n gb).map (wide c.gradWidth)
  let ws := elems32 4 n wb
  let s1s := (elems32 sw n b1).map (wide sw)
  let s2s := (elems32 sw n b2).map (wide sw)
  let outs := (List.range n).map fun k => recurrence cfg run.coef (nth 0 gs k) (nth 0 ws k) (nth 0 s1s k) (nth 0 s2s k)
  let out (k : Nat) : ParamOut := nth ⟨0, 0, 0, 0⟩ outs k
  let rm := bits c.flags 4 3
  let mode (tid k : Nat) : Mode :=
    modeOf rm (if rm = 2 then srNumber d.seed (tid % 65536) c.draw ((s.row0 + row) % 2 ^ 32) ((s.col0 + col + k) % 2 ^ 32) else 0)
  let narrowState (tid k v : Nat) : Nat × Nat :=
    if cfg.bf then let r := narrow 1 (mode tid k) false false (val32 v); (r.1, r.2.word) else (v, 0)
  let n1 := (List.range n).map fun k => narrowState (c.tid + 1) k (out k).u1
  let n2 := (List.range n).map fun k => narrowState (c.tid + 2) k (out k).u2
  let cp : List (Nat × Nat) := (List.range n).map fun k =>
    let r := narrow s.cfmt (mode c.tid k) true false (val32 (out k).w); (r.1, r.2.word)
  let pack (w : Nat) (l : List Nat) : List Nat := l.flatMap fun v => leBytes w v
  let put (d : Dev) (a w : Nat) (l : List Nat) (rd : Bool) : Dev :=
    let d1 := (d.store f a (pack w l)).countUnit a (w * n) true
    if rd then d1.countUnit a (w * n) false else d1
  let d5 := put d4 (s.wbase + 4 * i) 4 (outs.map (·.w)) true
  let d6 := if cfg.s1 then put d5 (s.s1base + sw * i) sw (n1.map (·.1)) true else d5
  let d7 := if cfg.s2 then put d6 (s.s2base + sw * i) sw (n2.map (·.1)) true else d6
  let copy := d7.copyBase s
  let d8 := match copy with | some b => put d7 (b.1 + 2 * i) 2 (cp.map Prod.fst) false | none => d7
  let fl := orAll (outs.map (·.flags) ++ (if cfg.s1 then n1.map (·.2) else []) ++ (if cfg.s2 then n2.map (·.2) else []) ++
    (if copy.isSome then cp.map Prod.snd else []))
  let d9 := (d8.groupStat u c.group fl).count .rUPD_PARAMS [u] n
  let x := d9.unit u
  (d9.setUnit u { x with running := some { run with done := run.done + n, spent := run.spent + n } }).setF fUPD_STAT_PROGRESS [u] (run.done + n)

/-- Process up to `n` parameters of the running command, as far as its gradient has arrived (R159, R170). -/
def Dev.advanceUpdate (d : Dev) (u : Nat) : Nat → Nat → Dev
  | 0, _ => d
  | fuel + 1, n =>
    match (d.unit u).running with
    | none => d
    | some run =>
      match d.shard run.cmd.shard with
      | none => d
      | some s =>
        let left := run.cmd.total s - run.done
        let rl := max 1 s.rowlen
        let have_ := if bits run.cmd.flags 1 0 = 0 then (Tab.get [] d.gradPort u).length / run.cmd.gradWidth else left
        let k := min (min n left) (min have_ (rl - run.done % rl))
        if k = 0 then d else (d.updSegment u run s k).advanceUpdate u fuel (n - k)

/-- Rows a command can still touch: enough steps for `advanceUpdate`. -/
def Dev.updFuel (d : Dev) (u : Nat) : Nat :=
  match (d.unit u).running with
  | none => 0
  | some run =>
    match d.shard run.cmd.shard with
    | none => 0
    | some s => run.cmd.total s / max 1 s.rowlen + 1

/-- An error comes up in the codeword of the next master weight that the running command reads (R225). -/
def Dev.updStrike (d : Dev) (u : Nat) (err : TierErr) : Dev :=
  match (d.unit u).running with
  | none => d
  | some run =>
    match d.shard run.cmd.shard with
    | none => d
    | some s =>
      let rl := max 1 s.rowlen
      let row := if run.cmd.opc = 2 then nth 0 run.rows (run.done / rl) else run.done / rl
      d.tierStrike u err (s.wbase + 4 * (row * rl + run.done % rl))

/-- What a unit may still process in the present arithmetic period (R159). -/
def Dev.updQuota (d : Dev) (u : Nat) : Nat := match (d.unit u).running with | some run => 128 - run.spent | none => 0

/-- UPDATE_COMPLETION (R136, R138, R171): the last of the command's parameters are written, as many as the period still allows (R159),
the tag state changes, and the completion is reported. A command whose elements have not all arrived, or that has more parameters left,
goes on (R170). -/
def Dev.completeUpdate (d : Dev) (u : Nat) (err : TierErr) : Dev :=
  let d1 := (d.updStrike u err).advanceUpdate u (d.updFuel u) (d.updQuota u)
  let x := d1.unit u
  match x.running with
  | none => d1
  | some run =>
    match d1.shard run.cmd.shard with
    | none => d1
    | some s =>
      if run.done < run.cmd.total s then d1
      else
        let d2 := if run.cmd.opc = 2 then
            d1.copyRows u s (match run.rows.getLast? with | some r => r + 1 | none => 0) (s.count / max 1 s.rowlen)
          else d1
        let d3 := d2.setUnit u { d2.unit u with running := none }
        let t := d3.tag s.region
        let d4 :=
          match (if s.hasRegion then d3.region s.region else none) with
          | none => d3
          | some r =>
            let t' : TagState :=
              if r.stashed then
                { cur := run.cmd.gen % 65536, slot := 1 - t.slot, stash := t.cur, stashValid := true, pending := t.pending,
                  pendingValid := false }
              else { t with cur := run.cmd.gen % 65536, pendingValid := false }
            { d3 with tags := Tab.put {} d3.tags s.region t' }
        d4.updDone u run.cmd

def execUpdateCompletion (unit : Fin 20) (err : TierErr) (s : State) : Host.Outcome State Fault Refusal :=
  s.upd fun _ d => d.completeUpdate unit.val err

/-! ## Stash releases -/

/-- Whether a pending release takes effect, or completes without one (R137). -/
def Dev.releaseReady (d : Dev) (c : UpdCmd) : Bool :=
  let t := d.tag c.region
  !(t.stashValid && t.stash = c.gen % 65536) || !d.expected c.region c.gen

/-- STASH_RELEASE (R137). -/
def execStashRelease (unit : Fin 20) (idx : Fin 16) (s : State) : Host.Outcome State Fault Refusal :=
  s.upd fun _ d =>
    let u := unit.val
    let x := d.unit u
    match x.releases[idx.val]? with
    | none => d
    | some c =>
      if !d.releaseReady c then d
      else
        let d1 := d.setUnit u { x with releases := x.releases.eraseIdx idx.val }
        let t := d.tag c.region
        let d2 := if t.stashValid && t.stash = c.gen % 65536 then
            { d1 with tags := Tab.put {} d1.tags c.region { t with stashValid := false } }
          else d1
        d2.updDone u c

/-- ABORT stops each unit at a parameter boundary, which the spec does not fix, and empties its queue (R171). -/
def Dev.abortUpdates (d : Dev) : Dev :=
  let d1 := (List.range 20).foldl (fun d u =>
    match (d.unit u).running with
    | none => d
    | some _ =>
      let k := Config.freeWord d.nonce
      ({ d with nonce := d.nonce + 1 }).advanceUpdate u (d.updFuel u) k) d
  let isCommand (g : Cargo) : Bool := match g with | .command _ _ _ => true | _ => false
  { d1 with upd := [], updSent := [], dyn := d1.dyn.filter fun f => !isCommand f.cargo }

/-- A request with an earlier deadline than the running command's is presented at the unit's controller (R239), or the controller
retrains (R229). -/
def Dev.unitYields (d : Dev) (u : Nat) : Bool :=
  d.retraining.contains u || match d.unitDeadline u with
  | none => false
  | some t => (d.presentedTo u).any fun q => decide (q.r.deadline < t)

/-- A unit's work in one arithmetic period: at most 128 parameters, none once it has stopped (R352), and UPD_BUSY (R159, R175). -/
def Dev.updPeriod (d : Dev) (u : Nat) : Dev :=
  let x := d.unit u
  match x.running with
  | none => d
  | some run =>
    let k := if d.unitYields u || d.isStopped (updUnit u) then 0 else Config.freeWord d.nonce % 129
    (({ d with nonce := d.nonce + 1 }.setUnit u { x with running := some { run with spent := 0 } }).advanceUpdate u 129 k).count
      .rUPD_BUSY [u] 1

/-- UPD_STAT and UPD_TAG as R175 and R176 show them. -/
def Dev.updStat (d : Dev) (u : Nat) : Nat :=
  let x := d.unit u
  putBits (putBits (putBits (d.word .rUPD_STAT [u]).toNat 63 63 (b2n x.running.isSome)) 62 56 x.queue.length) 55 51 x.releases.length
def Dev.updTag (d : Dev) (r : Nat) : Nat :=
  match d.region r with
  | none => 0
  | some g =>
    let t := d.tag r
    2 ^ 63 + b2n g.stashed * 2 ^ 62 + b2n t.stashValid * 2 ^ 61 + b2n t.pendingValid * 2 ^ 60 + t.slot % 2 * 2 ^ 59
      + g.owner % 32 * 2 ^ 54 + t.pending % 65536 * 2 ^ 32 + t.stash % 65536 * 2 ^ 16 + t.cur % 65536

end Sys2Proof.Machine
end

