-- ==== Sys2Proof/Machine/Arrivals.lean ====
section
/-! DEFINITION. NETWORK_FLIT_ARRIVAL: what flits bring to the endpoints of the on-die network (R253, R255, R257). -/
namespace Sys2Proof.Machine

/-- Elements of a GRAD descriptor enter their unit's port, which has kept room for them (R170). -/
def Dev.takeElements (d : Dev) (u : Nat) (bs : List Nat) : Dev :=
  { d with gradPort := Tab.put [] d.gradPort u (Tab.get [] d.gradPort u ++ bs) }

/-- A packet's last flit has come to its port, or, of one that lands here, to its memory (R276, R277). -/
def Dev.takeTransit (d : Dev) (port : Nat) (k : Option FabPacket) : Dev :=
  match k with
  | none => d
  | some k => if port ≥ 24 then d.hasArrived k else d.transmit port k

/-- What a flit of the dynamic classes or of a variable-latency descriptor does at its endpoint (Table 13-3). -/
def Dev.unload (d : Dev) (at_ : Nat × Nat) (g : Cargo) : Dev :=
  match g with
  | .request x id => d.requestArrives x id
  | .data x id off bs => d.takeData at_ x id off bs
  | .notice x id => d.takeNotice x id
  | .grad _ _ u bs => d.takeElements u bs
  | .command u s c => { d with updSent := d.updSent ++ [(u, s, c)] }
  | .transit port k => d.takeTransit port k

/-- A flit that has come to the end of a reserved path: a scheduled one takes effect as its header says, a VC2 one brings what it
carries (R256, R257). -/
def Dev.endPath (d : Dev) (f : NetFlit) : Dev :=
  match f.cargo, endpointAt f.router f.port with
  | some g, some (c, _) => d.unload (f.yard, c) g
  | some _, none => d
  | none, _ => d.arrive f

/-- The network is frozen with the engines (R260). -/
def Dev.netFrozen (d : Dev) : Bool := d.noReserve

/-- NETWORK_FLIT_ARRIVAL (R253, R255, R257): the first flit on a reserved path whose phase has come, or the first of the dynamic classes
that has reached its endpoint. An error may come up in its last router's buffers (R354); a scheduled flit gets no further in a router
that has stopped (R352). -/
def execNetworkFlitArrival (a : NetArrival) (ecc : Ecc) (s : State) : Host.Outcome State Fault Refusal :=
  s.upd fun _ d =>
    match a with
    | .scheduled =>
      match dueFlit d.sched.sc d.netFrozen d.net with
      | none => d
      | some (f, rest) =>
        let at_ := routerUnit f.yard f.router
        let d1 := { d with net := rest }.unitEcc ecc 3 f.yard 3 (regionOf f.yard f.router) at_ f.router
        if d1.isStopped at_ && f.cargo.isNone then d1 else d1.endPath f
    | .dynamic =>
      match d.dynDue with
      | none => d
      | some f =>
        let n := match placeOf f.dst.2 with | some (n, _) => n | none => 0
        let d1 := { d with dyn := d.dyn.filter fun g => g.no ≠ f.no }.logicEcc ecc 3 f.dst.1 3 (regionOf f.dst.1 n) n
        (d1.recordLatency f).unload f.dst f.cargo

end Sys2Proof.Machine
end

