-- ==== Sys2Proof/Machine/View.lean ====
section
/-! DEFINITION. What a read of a control-space register returns (R8, R312, R325): registers that show state held elsewhere, and
the stored ones. -/
namespace Sys2Proof.Machine

/-- SEC_LOFT.LSTATE (Table 17-12). -/
def LoftState.code : LoftState → Nat
  | .empty => 0 | .staging => 1 | .complete => 2 | .committed => 3

/-- SEC_LOFT (Table 17-12): TYPE and VERSION of the staged header and the body bytes staged. -/
def Dev.secLoft (d : Dev) : Nat :=
  let f := d.flash
  if f.loft = .empty then 0
  else f.loftBody.length % 2 ^ 26 + leNat ((f.loftHdr.drop 0x0E).take 2) * 2 ^ 32
    + leNat ((f.loftHdr.drop 0x0D).take 1) * 2 ^ 48 + f.loft.code * 2 ^ 62

/-- The value a read returns (R8, R325): the registers that show state held elsewhere, and the stored ones. -/
def Dev.readReg (d : Dev) (r : RegName) (idx : List Nat) : Word :=
  if r = .rHST_STATE then BitVec.ofNat 64 d.hstState
  else if r = .rSCH_SC then BitVec.ofNat 64 d.sched.shown
  else if r = .rSCH_TC then BitVec.ofNat 64 d.sched.tc
  else if r = .rSCH_HOLD_STAT then BitVec.ofNat 64 d.holdStat
  else if r = .rSCH_HOLD_FREEZE then BitVec.ofNat 64 d.sched.hold.freezeReg
  else if r = .rSCH_RUN_BASE then BitVec.ofNat 64 d.sched.base
  else if r = .rSCH_SLIP_MARKS then BitVec.ofNat 64 (d.sched.slips % 2 ^ 48)
  else if r = .rSCH_SB_USE then
    BitVec.ofNat 64 (putBits (d.word r idx).toNat 10 0 (d.sched.occupied (nth 0 idx 0)))
  else if r = .rREC_STAT then BitVec.ofNat 64 (putBits (d.word r idx).toNat 31 31 (b2n d.recFull))
  else if r = .rUPD_STAT then BitVec.ofNat 64 (d.updStat (nth 0 idx 0))
  else if r = .rUPD_TAG then BitVec.ofNat 64 (d.updTag (nth 0 idx 0))
  else if r = .rSEC_LOFT then BitVec.ofNat 64 d.secLoft
  else if r = .rSEC_IDPUB then BitVec.ofNat 64 (leNat ((Config.identityKey.drop (8 * nth 0 idx 0)).take 8))
  else if r = .rXFR_STAT ∨ r = .rXFR_FAULT ∨ r = .rXFR_FAULT_C01 ∨ r = .rXFR_FAULT_C23 ∨ r = .rXFR_FAULT_C4
      ∨ r = .rXFR_FAULT_HADDR then BitVec.ofNat 64 (d.xferView r (nth 0 idx 0))
  else d.word r idx

end Sys2Proof.Machine
end

