-- ==== Sys2Proof/Machine/Host.lean ====
section
/-! DEFINITION. The opcode table (R320), the packets of the control claim and of status (R322 to R325) and the reply path when
entries are freed. -/
namespace Sys2Proof.Machine

def inReadyLoaded : PartState → Bool
  | .ready | .loaded => true
  | .off | .boot | .running | .held | .halted | .faulted => false
def inLoaded : PartState → Bool
  | .loaded => true
  | .off | .boot | .ready | .running | .held | .halted | .faulted => false
def inHalted : PartState → Bool
  | .halted => true
  | .off | .boot | .ready | .loaded | .running | .held | .faulted => false
def inRestore : PartState → Bool
  | .loaded | .halted | .faulted => true
  | .off | .boot | .ready | .running | .held => false
/-- IDENTIFY and GET_STATUS are accepted in BOOT as well (R320); a host fetches nothing there. -/
def anyOrBoot : PartState → Bool
  | .off => false
  | .boot | .ready | .loaded | .running | .held | .halted | .faulted => true

/-- Table 16-6: opcode, claim, states, long, refused beside a long command. -/
def opTable : List CmdRow := [
  ⟨0x01, false, anyOrBoot, false, false⟩, ⟨0x02, false, anyOrBoot, false, false⟩,
  ⟨0x03, false, anyState, false, false⟩, ⟨0x04, false, anyState, false, false⟩,
  ⟨0x10, true, inReadyLoaded, true, false⟩, ⟨0x11, false, anyState, true, false⟩,
  ⟨0x12, true, inLoaded, false, true⟩, ⟨0x13, true, PartState.inRun, false, false⟩,
  ⟨0x14, true, inHalted, false, true⟩, ⟨0x15, true, anyState, false, false⟩,
  ⟨0x16, true, PartState.inRun, false, false⟩, ⟨0x17, true, inRestore, true, false⟩,
  ⟨0x20, true, anyState, false, false⟩, ⟨0x21, false, anyState, false, false⟩,
  ⟨0x22, true, anyState, false, false⟩, ⟨0x23, true, inReadyLoaded, false, false⟩,
  ⟨0x24, true, anyState, false, true⟩, ⟨0x30, false, anyState, false, false⟩,
  ⟨0x31, true, anyState, false, false⟩, ⟨0x32, false, anyState, false, false⟩,
  ⟨0x33, true, anyState, false, false⟩, ⟨0x34, false, anyState, false, false⟩,
  ⟨0x35, true, anyState, false, false⟩, ⟨0x40, true, anyState, false, false⟩,
  ⟨0x41, true, anyState, false, false⟩, ⟨0x42, true, anyState, true, false⟩,
  ⟨0x43, false, anyState, false, false⟩, ⟨0x60, false, anyState, false, false⟩,
  ⟨0x61, false, anyState, false, false⟩, ⟨0x62, true, PartState.inRun, false, false⟩,
  ⟨0x70, true, anyState, true, false⟩, ⟨0x71, false, anyState, false, false⟩,
  ⟨0x72, false, anyState, false, false⟩]

def cmdRow (opc : Nat) : Option CmdRow := opTable.find? fun c => c.opc = opc

/-- A packet of a known opcode at the arbiter (R319). -/
def Dev.command (d : Dev) (opc : Nat) (h : Hdr) (work : Owed → Dev → Dev) : Dev :=
  match cmdRow opc with
  | some c => d.arbitrate c h work
  | none => d

/-! ## Status and claim -/

/-- Who sent a request, as IDENTIFY reports it (R324). -/
def sourceCode : Source → Nat
  | .host .ha => 0
  | .host .hb => 1
  | .sideband => 2

/-- IDENTIFY's RESULT (R324). -/
def Dev.identity (d : Dev) (src : Source) : Nat :=
  0x54344456 + b2n d.cfg.steppingB0 * 2 ^ 32 + sourceCode src * 2 ^ 40 + d.getF fSEC_FW_VERSION [] * 2 ^ 48
    + d.cfg.serial % 2 ^ 64 * 2 ^ 64

/-- IDENTIFY (R324). -/
def execIdentify (h : Hdr) (s : State) : Host.Outcome State Fault Refusal :=
  s.upd fun _ d => d.command 0x01 h fun o d => d.complete o .ok (d.identity h.src)

/-- GET_STATUS (R324); in BOOT the upper half is SEC_BOOT (R341). -/
def execGetStatus (h : Hdr) (s : State) : Host.Outcome State Fault Refusal :=
  s.upd fun _ d => d.command 0x02 h fun o d =>
    let hi := if d.run = .boot then (d.word .rSEC_BOOT []).toNat else d.sched.shown
    d.complete o .ok (d.hstState + hi * 2 ^ 64)

/-- CLAIM (R322). -/
def execClaim (h : Hdr) (flags : Byte) (s : State) : Host.Outcome State Fault Refusal :=
  s.upd fun _ d => d.command 0x03 h fun o d =>
    let force := bit flags.toNat 0
    if flags.toNat ≥ 2 then d.complete o .badParam 0
    else if force && h.src ≠ .sideband then d.complete o .badParam 0
    else if d.claim = none ∨ d.claim = some h.src then { d with claim := some h.src }.complete o .ok 0
    else if force then
      let d1 := { d with claim := some .sideband }.complete o .ok 0
      match d.claim with
      | some old => d1.event (.only old) 0x04 .ok (claimCode (some .sideband))
      | none => d1
    else d.complete o .busy 0

/-- RELEASE (R322). -/
def execRelease (h : Hdr) (s : State) : Host.Outcome State Fault Refusal :=
  s.upd fun _ d => d.command 0x04 h fun o d =>
    if d.claim = some h.src then { d with claim := none }.complete o .ok 0 else d.complete o .notClaimed 0

/-- The register an address names, if any (R10, R325). -/
def regAtAddress (a : Nat) : Option (RegName × List Nat) :=
  if a % 8 ≠ 0 ∨ a < 0x7F0000000000 then none else regAt (a - 0x7F0000000000)

/-- READ_REG (R325). -/
def execReadReg (h : Hdr) (addr : Word) (s : State) : Host.Outcome State Fault Refusal :=
  s.upd fun _ d => d.command 0x30 h fun o d =>
    match regAtAddress addr.toNat with
    | some (r, idx) => d.complete o .ok (d.readReg r idx).toNat
    | none => d.complete o .badParam 0

/-! ## Freed entries -/

/-- Write the events, then the replies, that wait for entries of a port's rings (R315, R333). -/
def Dev.flushReplies (d : Dev) (p : Port) (k : Nat) : Nat → Dev
  | 0 => d
  | n + 1 =>
    let x := d.port p
    let r := x.ring k
    match r.waiting with
    | [] => d
    | (irq, m) :: rest =>
      if x.canWrite && r.rqEn && r.room false then
        ((d.setPort p (x.setRing k { r with waiting := rest })).writeEntry p k irq m).flushReplies p k n
      else d

/-- Write one waiting event to reply ring 0 if an unreserved entry is free (R333). -/
def Dev.deliverEvent (d : Dev) (p : Port) : Dev :=
  let x := d.port p
  match x.events with
  | [] => d
  | m :: rest =>
    if x.canWrite && x.ring0.rqEn && x.ring0.room true then
      (d.setPort p { x with events := rest, lostMark := false }).writeEntry p 0 true { m with lost := x.lostMark }
    else d

def Dev.flushEvents (d : Dev) (p : Port) : Nat → Dev
  | 0 => d
  | n + 1 => (d.deliverEvent p).flushEvents p n

/-- After entries are freed, or the port can write again: events first, then replies that wait (R333). -/
def Dev.flushPort (d : Dev) (p : Port) : Dev :=
  let d0 := d.flushEvents p (d.port p).events.length
  [0, 1, 2, 3].foldl (fun d k => d.flushReplies p k ((d.port p).ring k).waiting.length) d0

/-- EVENT_DELIVERY: a queued event is written once an unreserved entry is free (R333). -/
def execEventDelivery (p : Port) (s : State) : Host.Outcome State Fault Refusal :=
  s.upd fun _ d => d.deliverEvent p

end Sys2Proof.Machine
end

