-- ==== Sys2Proof/Machine/Recorder.lean ====
section
/-! DEFINITION. The event recorder (R362 to R368) and its commands. -/
namespace Sys2Proof.Machine

/-- The 24 values a trigger source captures through its snapshot set (R363). -/
def Dev.captureSet (d : Dev) (set : Nat) : List Nat :=
  (List.range 24).map fun j =>
    let w := (d.word .rREC_SET [set, j]).toNat
    if bit w 63 then
      match regAt (bits w 27 0) with
      | some (r, idx) =>
        let v := (d.readReg r idx).toNat
        if bit w 32 then bits v 63 32 else bits v 31 0
      | none => 0
    else 0

/-- The snapshot set a source selects (R363, Table 18-9). -/
def Dev.triggerSet (d : Dev) (source : Nat) : Nat :=
  let i := source % 16
  bits (d.word .rREC_TRIG_SET [source / 16]).toNat (4 * i + 3) (4 * i)

/-- The 128 bytes of a record, and writing them (Table 18-5). -/
def Dev.recordBytes (d : Dev) (i : Nat) : List Nat :=
  (List.range 16).flatMap fun j => leBytes 8 (d.word .rREC_RECORD [i, j]).toNat

def Dev.setRecord (d : Dev) (i : Nat) (b : List Nat) : Dev :=
  (List.range 16).foldl (fun d j =>
    d.setWord .rREC_RECORD [i, j] (BitVec.ofNat 64 (leNat ((b.drop (8 * j)).take 8)))) d

/-- The sequence number after `n`: 0 is never used (R372). -/
def nextRecordSeq (n : Nat) : Nat := if n ≥ 0xFFFFFFFF then 1 else n + 1

/-- A record's bytes (Table 18-5). -/
def recordOf (seq source set unit first last repeat_ flags : Nat) (vals : List Nat) : List Nat :=
  leBytes 4 seq ++ [source, set] ++ leBytes 2 unit ++ leBytes 8 first ++ leBytes 8 last ++ leBytes 2 repeat_
    ++ [flags, 0] ++ vals.flatMap (leBytes 4) ++ leBytes 4 seq

/-- RECORD_WRITE: the recorder writes the next queued trigger, or merges it into the record written last (R364, R365). -/
def Dev.writeRecord (d : Dev) : Dev :=
  match d.recorder.queue with
  | [] => d
  | t :: rest =>
    let d := { d with recorder := { d.recorder with queue := rest } }
    let set := d.triggerSet t.source
    let vals := d.captureSet set
    let seq := nextRecordSeq (d.getF fREC_STAT_SEQ [])
    let same := match d.recorder.last with
      | some i =>
        let b := d.recordBytes i
        let f o n := leNat ((b.drop o).take n)
        if d.flag fREC_CTL_MERGE [] && f 0 4 ≠ 0 && f 4 1 = t.source && f 6 2 = t.unit % 65536 &&
          (b.drop 0x1C).take 96 = vals.flatMap (leBytes 4) then some (i, b) else none
      | none => none
    if d.recFull then d.loseTrigger
    else match same with
    | some (i, b) =>
      let f o n := leNat ((b.drop o).take n)
      let rep := f 0x18 2
      let d1 := d.setRecord i (recordOf seq t.source (f 5 1) t.unit (f 8 8) t.tc (min 65535 (rep + 1))
        (if rep = 65535 then putBits (f 0x1A 1) 0 0 1 else f 0x1A 1) vals)
      d1.setF fREC_STAT_SEQ [] seq
    | none =>
      let i := d.getF fREC_STAT_HEAD []
      let d1 := d.setRecord i (recordOf seq t.source set t.unit t.tc t.tc 0 (2 * b2n d.recorder.lost) vals)
      let d2 := (d1.setF fREC_STAT_SEQ [] seq).setF fREC_STAT_HEAD [] ((i + 1) % 8192)
      { d2 with recorder := { d2.recorder with lost := false, last := some i, since := d2.recorder.since + 1 } }

/-- The event bit that Table 18-4 names for a source lets it fire on a unit (R362): of a hold all but the causes SLIP and RELOCK ask
SCH_CTL. -/
def Dev.eventBit (d : Dev) (source unit : Nat) : Bool :=
  let flag (f : Field) (idx : List Nat) (ok : Bool) : Bool := ok && d.flag f idx
  if source = 2 then unit = 7 || unit = 8 || flag fSCH_CTL_HOLD_EVENT [] true
  else if source = 3 then
    (List.range 16).any fun e => unit < 128 && d.posM (unit / 32) e = unit % 32 && d.flag fENG_MCTL_SDC_EVENT [unit / 32, e]
  else if source = 4 then flag fENG_VCTL_CHOL_EVENT [unit / 16, unit % 16] (unit < 64 && unit % 16 < 8)
  else if source = 5 then flag fENG_VCTL_EMPTY_EVENT [unit / 16, unit % 16] (unit < 64 && unit % 16 < 8)
  else if source = 6 then flag fUPD_CTL_FAULT_EVENT [unit] (unit < 20)
  else if source = 7 then flag fUPD_CTL_DIV0_EVENT [unit] (unit < 20)
  else if source = 8 then flag fOCM_CTL_CE_EVENT [unit] (unit < 4)
  else if source = 9 then flag fOCM_CTL_UE_EVENT [unit] (unit < 4)
  else if source = 10 then flag fMEM_CTL_CE_EVENT [unit] (unit < 20)
  else if source = 11 then flag fMEM_CTL_UE_EVENT [unit] (unit < 20)
  else if source = 12 then flag fMEM_CTL_R2X_EVENT [unit] (unit < 20)
  else if source = 13 then flag fXFR_CTL_FAULT_EVENT [] true
  else if source = 14 then flag fXFR_CTL_LOST_EVENT [] true
  else if source = 15 then flag fNOC_CTL_FAIL_EVENT [unit / 64] (unit < 256)
  else if source = 16 then flag fNOC_CTL_RETRY_EVENT [unit / 64] (unit < 256)
  else if source = 17 then flag fFAB_CTL_DOWN_EVENT [] true
  else if source = 18 then flag fFAB_CTL_TIME_EVENT [] true
  else if source = 19 then flag fFAB_CTL_DROP_EVENT [] true
  else if source = 20 then flag fFAB_CTL_RETRY_EVENT [] true
  else if source = 21 then flag fCLK_CTL_MISSED_EVENT [] true
  else if source = 22 then flag fCLK_CTL_THROTTLE_EVENT [] true
  else if source = 23 then flag fCLK_CTL_OPCHG_EVENT [] true
  else if source = 24 then flag fCLK_CTL_AVS_EVENT [] true
  else if source = 26 then flag fHST_CTL_WDOG_EVENT [] true
  else if source = 28 then flag fMON_CFG_LIMIT_EN [unit] (unit < 64)
  else true

/-- RECORDER_TRIGGER: a trigger source that its unit's event bit allows fires (R362, R364). -/
def execRecorderTrigger (source : BitVec 6) (unit : BitVec 16) (s : State) : Host.Outcome State Fault Refusal :=
  s.upd fun _ d => if d.eventBit source.toNat unit.toNat then d.fire source.toNat unit.toNat else d

def execRecordWrite (s : State) : Host.Outcome State Fault Refusal := s.upd fun _ d => d.writeRecord

/-- Start a dump into the next slot; while another is in progress none is made (R368). -/
def Dev.startDump (d : Dev) : Dev :=
  match d.recorder.dump with
  | some _ => d
  | none => { d with recorder := { d.recorder with dump := some d.flash.nextSlot } }

/-- DUMP_START: 10 ms after a stopping fault with dump on fault set (R368). -/
def execDumpStart (s : State) : Host.Outcome State Fault Refusal :=
  s.upd fun _ d =>
    match d.recorder.dumpAt with
    | some t => if d.sched.ref ≥ t then { d with recorder := { d.recorder with dumpAt := none } }.startDump else d
    | none => d

/-- The stored words of the record buffer: offset within the buffer and word. -/
def Dev.recordBuffer (d : Dev) : List (Nat × Nat) :=
  (d.regs.filter fun e => 0x9100000 ≤ e.1 ∧ e.1 < 0x9200000).map fun e => (e.1 - 0x9100000, e.2.toNat)

/-- DUMP_COMPLETE: the slot holds the buffer as it stands, and the next slot follows (R368). -/
def execDumpComplete (s : State) : Host.Outcome State Fault Refusal :=
  s.upd fun _ d =>
    match d.recorder.dump with
    | none => d
    | some slot =>
      { d with
        recorder := { d.recorder with dump := none }
        flash := { d.flash with dumps := Tab.insert d.flash.dumps slot d.recordBuffer,
                                nextSlot := (slot + 1) % 61 } }

/-- CLEAR: every record becomes zero and HEAD 0 (R367). -/
def execClear (h : Hdr) (s : State) : Host.Outcome State Fault Refusal :=
  s.upd fun _ d => d.command 0x33 h fun o d =>
    let d1 := { d with regs := Tab.clear d.regs 0x9100000 0x9200000,
                       recorder := { d.recorder with since := 0, last := none } }
    (d1.setF fREC_STAT_HEAD [] 0).complete o .ok 0

/-- TRIGGER: fires source 33 with UNIT from VALUE (R367). -/
def execTrigger (h : Hdr) (value : Word) (s : State) : Host.Outcome State Fault Refusal :=
  s.upd fun _ d => d.command 0x33 h fun o d => (d.fire 33 (value.toNat % 65536)).complete o .ok 0

/-- DUMP: writes a dump now (R367, R368). -/
def execDump (h : Hdr) (s : State) : Host.Outcome State Fault Refusal :=
  s.upd fun _ d => d.command 0x33 h fun o d => d.startDump.complete o .ok 0

/-- SET_DUMP: the setting goes to the settings; the reply follows the flash write (R348, R367). -/
def execSetDump (h : Hdr) (value : Word) (s : State) : Host.Outcome State Fault Refusal :=
  s.upd fun _ d => d.command 0x33 h fun o d =>
    { d with flash := { d.flash with
        ops := d.flash.ops ++ [⟨some o, some { d.flash.newest with dumpOnFault := bit value.toNat 0 }⟩] } }

/-- GET_DUMP (R367). -/
def execGetDump (h : Hdr) (s : State) : Host.Outcome State Fault Refusal :=
  s.upd fun _ d => d.command 0x33 h fun o d =>
    d.complete o .ok (b2n d.flash.active.dumpOnFault + d.flash.nextSlot * 2 ^ 8)

/-- A destination that must lie in a valid window of the sender's port with WRITE (R367). -/
def Dev.windowDest (d : Dev) (src : Source) (a len : Nat) : Bool :=
  match locate a with
  | .window _ _ => d.srcSpace src a len true false ≠ .bad
  | .onchip _ _ _ _ | .hbm _ _ | .ddr _ _ | .control _ | .nowhere => false

/-- READ_RECORDER (R367). -/
def execReadRecorder (h : Hdr) (source slot : Byte) (first count : BitVec 32) (dst : Word) (s : State) :
    Host.Outcome State Fault Refusal :=
  s.upd fun _ d => d.command 0x32 h fun o d =>
    let n := count.toNat
    if source.toNat > 1 ∨ n = 0 ∨ n > 8192 ∨ !d.windowDest h.src dst.toNat (128 * n) then d.complete o .badParam 0
    else
      let at_ (k : Nat) : Nat := (first.toNat + k) % 8192
      if source.toNat = 0 then
        (d.writeDest dst.toNat ((List.range n).flatMap fun k => d.recordBytes (at_ k))).complete o .ok 0
      else
        match Tab.find d.flash.dumps slot.toNat with
        | none => d.complete o .badParam 0
        | some buf =>
          (d.writeDest dst.toNat ((List.range n).flatMap fun k =>
            (List.range 16).flatMap fun j => leBytes 8 (Tab.get 0 buf (128 * at_ k + 8 * j)))).complete o .ok 0

end Sys2Proof.Machine
end

