-- ==== Sys2Proof/Machine/Firmware.lean ====
section
/-! DEFINITION. Firmware and key-list staging, the settings in flash, and the completion of flash operations (R346 to R349). -/
namespace Sys2Proof.Machine

/-- A field of a byte string, least significant byte first (R6). -/
def field (b : List Nat) (o n : Nat) : Nat := leNat ((b.drop o).take n)

/-- Bytes of a firmware or key-list header that must be 0 (Table 17-6). -/
def headerReservedOk (b : List Nat) : Bool := field b 0x14 4 = 0 && (b.drop 0x88).all (· = 0) && field b 0x0C 1 < 4

/-- BODY_LEN keeps to Table 17-6, or to 72 × (1 + n) for a key list of n image keys (R349). -/
def bodyLenOk (b : List Nat) : Bool :=
  let n := field b 0x18 8
  if field b 0x0D 1 = 1 then decide (256 ≤ n ∧ n ≤ 33553920) else decide (n % 72 = 0 ∧ 72 ≤ n ∧ n ≤ 648)

/-- The first check of FW_STAGE_BEGIN (R347). -/
def Dev.headerOk (d : Dev) (b : List Nat) : Bool :=
  field b 0 4 = 0x464C5355 && field b 4 2 = 0x0100 && field b 6 2 = 0x0200 && field b 8 4 = 0x54344456 &&
  (field b 0x0D 1 = 1 || field b 0x0D 1 = 2) && bodyLenOk b && headerReservedOk b &&
  bit (field b 0x0C 1) (if d.cfg.steppingB0 then 1 else 0)

/-- A ROM firmware key that is not revoked and has the identifier (R340, R346). -/
def Dev.romKeyFor (d : Dev) (id : Nat) : Option Nat :=
  (List.range 4).find? fun k => Config.romKeyId k % 2 ^ 64 = id && !bit d.cfg.revoked k

/-- Who may sign a staged header (R346, R349): its public key, or `pending` for a key list that carries its own owner entry,
whose signature can only be verified once the body is there. -/
inductive Signer where
  | key (k : List Nat)
  | pending
  | nobody
  deriving DecidableEq, Repr

def Dev.signerOf (d : Dev) (src : Source) (b : List Nat) : Signer :=
  let id := field b 0x20 8
  match d.romKeyFor id with
  | some k => .key (Config.romKey k)
  | none =>
    if field b 0x0D 1 = 1 then .nobody
    else
      match d.flash.active.owner with
      | some o => if o.id = id then .key o.key else .nobody
      | none => if src = .sideband then .pending else .nobody

/-- SIGNATURE over bytes 0x000 to 0x047 (Table 17-6). -/
def headerSigned (b key : List Nat) : Bool := Config.sm2Verifies key (b.take 0x48) ((b.drop 0x48).take 64)

/-- The address of a command's SRC field: bits [47:0], a multiple of 256; none where a rule is broken (R323). -/
def srcField (w : Word) : Option Nat := if w.toNat < 2 ^ 48 ∧ w.toNat % 256 = 0 then some w.toNat else none

def Dev.committing (d : Dev) : Bool :=
  match d.long with
  | some l => match l.work with
    | .commit => true
    | .load _ _ _ | .verify _ | .restore _ | .train _ => false
  | none => false

/-- FW_STAGE_BEGIN (R347): the loft is STAGING for every later packet (R318); the reply follows the erasing and programming. -/
def execFwStageBegin (h : Hdr) (src : Word) (r : HostRead) (s : State) : Host.Outcome State Fault Refusal :=
  s.upd fun _ d => d.command 0x40 h fun o d =>
    if d.committing then d.complete o .busy 0
    else match srcField src with
    | none => d.complete o .badParam 0
    | some a =>
      if d.srcSpace h.src a 512 false true = .bad then d.complete o .badParam 0
      else match d.readSource h.src a 512 r with
      | (none, d) => d.complete o .transferFault 0
      | (some b, d) =>
        if !d.headerOk b then d.complete o .imageHeader 0
        else
          let signed := match d.signerOf h.src b with
            | .key k => headerSigned b k
            | .pending => true
            | .nobody => false
          if !signed then d.complete o .imageSignature 0
          else if field b 0x0D 1 = 1 ∧ field b 0x10 2 < d.cfg.minSvn then d.complete o .imageHeader 0
          else
            { d with flash := { d.flash with
                loft := .staging, loftHdr := b, loftBody := [], ops := d.flash.ops ++ [⟨some o, none⟩] } }

/-- FW_STAGE_DATA (R347): the piece is staged for every later packet (R318); the reply follows its programming. -/
def execFwStageData (h : Hdr) (src : Word) (length offset : BitVec 32) (r : HostRead) (s : State) :
    Host.Outcome State Fault Refusal :=
  s.upd fun _ d => d.command 0x41 h fun o d =>
    let n := length.toNat
    let total := field d.flash.loftHdr 0x18 8
    let ends := offset.toNat + n = total
    if d.committing then d.complete o .busy 0
    else if d.flash.loft ≠ .staging ∨ offset.toNat ≠ d.flash.loftBody.length ∨ n > 0x100000 ∨ n = 0 ∨
        (¬ ends ∧ (n % 256 ≠ 0 ∨ n < 256)) ∨ offset.toNat + n > total then d.complete o .badParam 0
    else match srcField src with
    | none => d.complete o .badParam 0
    | some a =>
      if d.srcSpace h.src a n false true = .bad then d.complete o .badParam 0
      else match d.readSource h.src a n r with
      | (none, d) => d.complete o .transferFault 0
      | (some b, d) =>
        let body := d.flash.loftBody ++ b
        { d with flash := { d.flash with
            loftBody := body, loft := if body.length = total then .complete else .staging
            ops := d.flash.ops ++ [⟨some o, none⟩] } }

/-- FW_STAGE_COMMIT (R347): what a staged body fails at once, or the long work of verifying it. -/
def execFwStageCommit (h : Hdr) (s : State) : Host.Outcome State Fault Refusal :=
  s.upd fun _ d => d.command 0x42 h fun o d =>
    match d.flash.loft with
    | .empty | .committed => d.complete o .stagingEmpty 0
    | .staging => d.complete o .badParam 0
    | .complete => { d with long := some ⟨o, .commit⟩ }

/-- FW_STATUS (R347). -/
def execFwStatus (h : Hdr) (s : State) : Host.Outcome State Fault Refusal :=
  s.upd fun _ d => d.command 0x43 h fun o d =>
    d.complete o .ok ((d.word .rSEC_FW []).toNat + d.secLoft * 2 ^ 64)

/-! ## Settings -/

/-- Write the settings: to the copy with the lower generation, with the higher generation + 1 (R348); SEC_SETTINGS and
SEC_IMGKEY follow. -/
def Dev.writeSettings (d : Dev) (v : Settings) : Dev :=
  let f := d.flash
  let toB := f.copyB.gen < f.copyA.gen
  let c : SettingsCopy := ⟨true, d.boot.fmtInUse, max f.copyA.gen f.copyB.gen + 1, v⟩
  let d1 := { d with flash := { f with active := v, copyA := if toB then f.copyA else c,
                                       copyB := if toB then c else f.copyB } }
  let d2 := ((d1.setF fSEC_SETTINGS_COPY [] (b2n toB)).setF fSEC_SETTINGS_OWNER [] (b2n v.owner.isSome)).setF
    fSEC_SETTINGS_KEYS [] v.images.length
  (List.range 8).foldl (fun d k =>
    d.setWord .rSEC_IMGKEY [k] (BitVec.ofNat 64 (match v.images[k]? with | some e => e.id | none => 0))) d2

/-- A key entry of a key list: 8 bytes of KEY_ID and 64 of key (R349). -/
def keyEntry (b : List Nat) (i : Nat) : KeyEntry := ⟨field b (72 * i) 8, (b.drop (72 * i + 8)).take 64⟩

/-- The end of a commit: digest, then COMMITTED or the new key block (R347, R349). -/
def Dev.finishCommit (d : Dev) (o : Owed) : Dev :=
  let b := d.flash.loftHdr
  let body := d.flash.loftBody
  let own := keyEntry body 0
  let pending := field b 0x0D 1 = 2 && (d.romKeyFor (field b 0x20 8)).isNone &&
    (match d.flash.active.owner with | some k => decide (k.id ≠ field b 0x20 8) | none => true)
  let signed := !pending || (own.id = field b 0x20 8 && d.flash.active.owner.isNone && headerSigned b own.key)
  if Config.sm3 body ≠ (b.drop 0x28).take 32 ∨ !signed then
    { d with flash := { d.flash with loft := .empty, loftHdr := [], loftBody := [] } }.complete o .imageSignature 0
  else if field b 0x0D 1 = 1 then
    { d with flash := { d.flash with loft := .committed } }.complete o .ok 0
  else
    let n := body.length / 72 - 1
    let v := { d.flash.active with owner := some own, images := (List.range n).map fun i => keyEntry body (i + 1) }
    let d1 := d.writeSettings v
    { d1 with flash := { d1.flash with loft := .empty, loftHdr := [], loftBody := [] } }.complete o .ok 0

/-- A staged header or piece is still being programmed. -/
def Flash.programming (f : Flash) : Bool := f.ops.any fun op => op.settings.isNone

/-- FLASH_PROGRAM_COMPLETE: the oldest flash operation finishes and its command completes (R347, R367). A write of the variable
block keeps the key block (R348). -/
def execFlashProgramComplete (s : State) : Host.Outcome State Fault Refusal :=
  s.upd fun _ d =>
    match d.flash.ops with
    | [] => d
    | op :: rest =>
      let d1 := { d with flash := { d.flash with ops := rest } }
      let d2 :=
        match op.settings with
        | some v => d1.writeSettings { v with owner := d1.flash.active.owner, images := d1.flash.active.images }
        | none => d1
      match op.owed with
      | some o => d2.complete o .ok 0
      | none => d2

end Sys2Proof.Machine
end

