-- ==== Sys2Proof/Machine/Attest.lean ====
section
/-! DEFINITION. SPDM (R345) and the I3C sideband's control messages (R336). Message codes and the order in which requests are
allowed are those of DSP0274 and DSP0236 (PRESUMED; log entry 17). -/
namespace Sys2Proof.Machine

/-! ## SPDM -/

/-- What a request may need before it: nothing, the version, the capabilities, the algorithms. -/
inductive SpdmNeed where
  | none | version | caps | algs
  deriving DecidableEq, Repr

def Spdm.meets (x : Spdm) : SpdmNeed → Bool
  | .none => true
  | .version => x.version
  | .caps => x.version && x.caps
  | .algs => x.version && x.caps && x.algs

/-- An SPDM response: version 1.2, or 1.0 in VERSION, then code, two parameters, body (DSP0274). -/
def Dev.spdmReply (d : Dev) (p : Port) (code p1 p2 : Nat) (body : List Nat) : Dev :=
  (d.emit (.spdm p ([if code = 0x04 then 0x10 else 0x12, code, p1, p2] ++ body))).count .rSEC_SPDM_CNT [] 1

/-- An SPDM ERROR response, which answers the request as well (R343, R345, Table 17-9). -/
def Dev.spdmError (d : Dev) (p : Port) (err : Nat) : Dev :=
  ((d.emit (.spdm p [0x12, 0x7F, err, 0])).count .rSEC_SPDM_CNT [] 1).count .rSEC_SPDM_ERR_CNT [] 1

/-- One SPDM request: unanswered while the port is down or not configured; ERROR Unspecified after GET_VERSION when the part
has no identity (R343); ERROR VersionMismatch or UnexpectedRequest as DSP0274 gives. -/
def Dev.spdm (d : Dev) (p : Port) (need : SpdmNeed) (version : Byte) (work : Dev → Dev) : Dev :=
  let x := d.port p
  if d.run = .off ∨ !x.link ∨ !x.cfgReady then d
  else if need ≠ .none ∧ d.flag fSEC_ID_FAIL [] then d.spdmError p 0x05
  else if need ≠ .none ∧ version.toNat ≠ 0x12 then d.spdmError p 0x41
  else if !x.spdm.meets need then d.spdmError p 0x04
  else work d

def Dev.setSpdm (d : Dev) (p : Port) (f : Spdm → Spdm) : Dev :=
  d.setPort p { d.port p with spdm := f (d.port p).spdm }

/-- GET_VERSION: version 1.2 only (Table 17-4). -/
def execGetVersion (p : Port) (s : State) : Host.Outcome State Fault Refusal :=
  s.upd fun _ d => d.spdm p .none 0 fun d =>
    (d.setSpdm p fun _ => { version := true }).spdmReply p 0x04 0 0 [0, 1, 0x00, 0x12]

/-- GET_CAPABILITIES: CERT_CAP, CHAL_CAP, MEAS_CAP = 2, MEAS_FRESH_CAP; CTExponent 17 (Table 17-4). -/
def execGetCapabilities (p : Port) (version : Byte) (s : State) : Host.Outcome State Fault Refusal :=
  s.upd fun _ d => d.spdm p .version version fun d =>
    (d.setSpdm p fun x => { x with caps := true }).spdmReply p 0x61 0 0
      ([0, 17, 0, 0] ++ leBytes 4 (2 + 4 + 2 * 8 + 32))

/-- NEGOTIATE_ALGORITHMS: SM2 and SM3 only (Table 17-4); a requester that offers neither gets ERROR InvalidRequest. -/
def execNegotiateAlgorithms (p : Port) (version : Byte) (asym hash : BitVec 32) (s : State) :
    Host.Outcome State Fault Refusal :=
  s.upd fun _ d => d.spdm p .caps version fun d =>
    if bit asym.toNat 9 ∧ bit hash.toNat 6 then
      (d.setSpdm p fun x => { x with algs := true }).spdmReply p 0x63 0 0 (leBytes 4 (2 ^ 9) ++ leBytes 4 (2 ^ 6))
    else d.spdmError p 0x01

/-- GET_DIGESTS: the digest of the slot 0 chain. -/
def execGetDigests (p : Port) (version : Byte) (s : State) : Host.Outcome State Fault Refusal :=
  s.upd fun _ d => d.spdm p .algs version fun d => d.spdmReply p 0x01 0 1 (Config.sm3 Config.certificateChain)

/-- GET_CERTIFICATE: a portion of the chain of slot 0, the only slot (R344). -/
def execGetCertificate (p : Port) (version : Byte) (slot : Byte) (offset length : BitVec 16) (s : State) :
    Host.Outcome State Fault Refusal :=
  s.upd fun _ d => d.spdm p .algs version fun d =>
    let chain := Config.certificateChain
    if slot.toNat ≠ 0 ∨ offset.toNat ≥ chain.length then d.spdmError p 0x01
    else
      let part := (chain.drop offset.toNat).take length.toNat
      d.spdmReply p 0x02 0 0 (leBytes 2 part.length ++ leBytes 2 (chain.length - offset.toNat - part.length) ++ part)

/-- LOAD_IMAGE is in its writing pass (R327). -/
def Dev.loading (d : Dev) : Bool :=
  match d.long with
  | some l => match l.work with
    | .load _ _ _ => true
    | .verify _ | .restore _ | .commit | .train _ => false
  | none => false

/-- The key block's bytes, as its digest takes them (Table 17-5, index 5). -/
def Settings.keyBytes (v : Settings) : List Nat :=
  (v.owner.toList ++ v.images).flatMap fun e => leBytes 8 e.id ++ e.key

/-- The measurement blocks of Table 17-5. -/
def Dev.measurement (d : Dev) (i : Nat) : List Nat :=
  if i = 1 then Config.bootRomDigest
  else if i = 2 then Config.partRecordDigest
  else if i = 3 then (d.flash.activeHdr.drop 0x28).take 32
  else if i = 4 then leBytes 2 (d.getF fSEC_FW_VERSION []) ++ leBytes 2 (d.getF fSEC_FW_SVN [])
    ++ leBytes 2 (d.getF fSEC_FW_MIN_SVN [])
  else if i = 5 then Config.sm3 d.flash.active.keyBytes
  else if i = 6 then
    match d.sched.image with
    | some im => if d.loading then List.replicate 32 0 else im.digest
    | none => List.replicate 32 0
  else leBytes 8 (d.word .rHST_SEQ []).toNat ++ leBytes 8 d.hstState ++ leBytes 8 (d.word .rFAB_ID []).toNat

/-- A measurement block: index, DMTF format, size, form, size, value (DSP0274). -/
def Dev.measurementBlock (d : Dev) (i : Nat) : List Nat :=
  let v := d.measurement i
  [i, 1] ++ leBytes 2 (v.length + 3) ++ [if i = 4 ∨ i = 7 then 0x80 else 0] ++ leBytes 2 v.length ++ v

/-- A signature by the identity key, and the counter of free values advanced (R345; log entry 11). -/
def Dev.sign (d : Dev) (msg : List Nat) : List Nat × Dev :=
  (Config.spdmSignature d.nonce msg, { d with nonce := d.nonce + 1 })

/-- CHALLENGE: answered with a signature by the identity key. -/
def execChallenge (p : Port) (version slot : Byte) (nonce : BitVec 256) (s : State) : Host.Outcome State Fault Refusal :=
  s.upd fun _ d => d.spdm p .algs version fun d =>
    if slot.toNat ≠ 0 then d.spdmError p 0x01
    else
      let body := Config.sm3 Config.certificateChain ++ leBytes 32 nonce.toNat
      let (sig, d1) := d.sign body
      d1.spdmReply p 0x03 0 1 (body ++ sig)

/-- GET_MEASUREMENTS: the number of blocks (operation 0), all of them (0xFF) or one; signed when asked. -/
def execGetMeasurements (p : Port) (version op : Byte) (signed : Bool) (nonce : BitVec 256) (s : State) :
    Host.Outcome State Fault Refusal :=
  s.upd fun _ d => d.spdm p .algs version fun d =>
    let i := op.toNat
    if i ≠ 0 ∧ i ≠ 0xFF ∧ i > 7 then d.spdmError p 0x01
    else
      let which := if i = 0 then [] else if i = 0xFF then [1, 2, 3, 4, 5, 6, 7] else [i]
      let body := which.flatMap d.measurementBlock
      let n := if i = 0 then 7 else which.length
      if signed then
        let (sig, d1) := d.sign (body ++ leBytes 32 nonce.toNat)
        d1.spdmReply p 0x60 n 0 (body ++ sig)
      else d.spdmReply p 0x60 n 0 body

/-! ## The sideband -/

/-- The sideband is alive once the boot ROM has started (R336, Table 17-2). -/
def Dev.sidebandUp (d : Dev) : Bool := d.run ≠ .off && (d.run ≠ .boot || decide (d.boot.stage ≥ 1))

/-- ENTDAA assigns the target's dynamic address (R336). -/
def execEntdaa (addr : BitVec 7) (s : State) : Host.Outcome State Fault Refusal :=
  s.upd fun _ d =>
    if !d.sidebandUp then d
    else { d with sideband := { d.sideband with addr := some addr.toNat } }.emit (.control [addr.toNat])

/-- An MCTP control message, which needs a dynamic address (R336). -/
def Dev.mctpControl (d : Dev) (work : Dev → Dev) : Dev :=
  if !d.sidebandUp ∨ d.sideband.addr.isNone then d else work d

/-- Set Endpoint ID: once the firmware runs it goes to the settings, which hold it (R336, R348). -/
def execSetEndpointId (eid : Byte) (s : State) : Host.Outcome State Fault Refusal :=
  s.upd fun _ d => d.mctpControl fun d =>
    let flash := if d.boot.fwReady then
        { d.flash with ops := d.flash.ops ++ [⟨none, some { d.flash.newest with eid := eid.toNat }⟩] }
      else d.flash
    { d with sideband := { d.sideband with eid := eid.toNat }, flash := flash }.emit (.control [0x01, 0, 0, eid.toNat, 0])

def execGetEndpointId (s : State) : Host.Outcome State Fault Refusal :=
  s.upd fun _ d => d.mctpControl fun d => d.emit (.control [0x02, 0, d.sideband.eid, 0, 0])

def execGetMctpVersionSupport (s : State) : Host.Outcome State Fault Refusal :=
  s.upd fun _ d => d.mctpControl fun d => d.emit (.control [0x04, 0, 1, 0xF1, 0xF3, 0xF1, 0])

/-- The part supports the vendor-defined PCI message type 0x7E beside control messages (R336). -/
def execGetMessageTypeSupport (s : State) : Host.Outcome State Fault Refusal :=
  s.upd fun _ d => d.mctpControl fun d => d.emit (.control [0x05, 0, 1, 0x7E])

/-- SIDEBAND_EVENT_READ: the board management controller collects the oldest announced event (R336). -/
def execSidebandEventRead (s : State) : Host.Outcome State Fault Refusal :=
  s.upd fun _ d =>
    match d.sideband.waiting with
    | [] => d
    | m :: rest => { d with sideband := { d.sideband with waiting := rest } }.emit (.mctp m)

end Sys2Proof.Machine
end

