-- ==== Sys2Proof/Machine/MemTiers.lean ====
section
/-! DEFINITION. The scrubbers of on-chip memory (R213) and of the memory tiers (R226), and what each memory controller does by
itself: its temperature readout, refresh rate, and read thresholds (R224, R227). -/
namespace Sys2Proof.Machine

/-- Whether the part is up: a command of a unit that has no power, or has not booted, changes nothing. -/
def Dev.up (d : Dev) : Bool := d.run ≠ .off && d.run ≠ .boot

/-! ## On-chip scrubbers -/

/-- Physical positions of a space in a yard (Table 1-2, R12, R14): spares included. -/
def spacePositions (space : Nat) : Nat :=
  if space = 0 then 1 else if space = 1 ∨ space = 2 then 18 else if space = 3 then 9 else if space = 5 then 5 else 0

/-- SCRUB: a bank's scrubber reads its next row, if no port presents a read to the bank and it has not read in this period yet; an
error may have come up in a word of the row (R212, R213, Table 10-6). -/
def execScrub (yard : Fin 4) (space : Fin 6) (pos : Fin 18) (bank : Fin 64) (word : Fin 16) (ecc : Ecc) (s : State) :
    Host.Outcome State Fault Refusal :=
  s.upd fun _ d =>
    let y := yard.val
    let key := bankKey y space.val pos.val bank.val
    if !d.up || !d.flag fOCM_CTL_SCRUB_EN [y] || d.bankRead key || d.scrub.now.contains key then d
    else if pos.val ≥ spacePositions space.val ∨ bank.val ≥ spaceBanks space.val then d
    else
      let off := bankRowOff space.val bank.val (d.scrubRow y space.val key) + 8 * word.val % rowWidth space.val
      (d.strikeKey ecc 0 (onchipAddr y space.val pos.val off)).scrubBank y space.val pos.val bank.val

/-! ## Memory tiers -/

/-- PATROL_SCRUB: the patrol scrubber of a controller reads a codeword, in which an error may have come up, and records or counts
what it finds (R225, R226). -/
def execPatrolScrub (addr : BitVec 48) (err : TierErr) (s : State) : Host.Outcome State Fault Refusal :=
  s.upd fun _ d =>
    match tierController addr.toNat with
    | none => d
    | some u =>
      if !d.up || !d.flag fMEM_CTL_SCRUB_EN [u] || !d.populated addr.toNat 1 then d
      else (d.tierStrike u err addr.toNat).meetWord true (addr.toNat / 64 * 64)

/-- MEMORY_TEMPERATURE_READ: every 32 µs a controller reads its hottest sensor and selects the refresh rate: doubled from
85 °C, normal again below 80 °C (R224, Table 11-3). -/
def execMemoryTemperatureRead (unit : Fin 20) (temp : Byte) (s : State) : Host.Outcome State Fault Refusal :=
  s.upd fun _ d =>
    let u := unit.val
    if !d.up || d.flag fMEM_STAT_FAILED [u] then d
    else
      let t := signed 8 temp.toNat
      let was := d.flag fMEM_STAT_REFRESH2X [u]
      let d1 := if was then d.count .rMEM_R2X_US [u] 32 else d
      let d1' := d1.setF fMEM_STAT_TEMP [u] temp.toNat
      let hot := (List.range 20).any fun v => decide (signed 8 (d1'.getF fMEM_STAT_TEMP [v]) > 95)
      let d2 := (d1'.setF fCLK_THERM_MEM_HOT [] (b2n hot)).sample 9 u t
      if t ≥ 85 then
        let d3 := (d2.setF fMEM_STAT_REFRESH2X [u] 1).noteFlags
        if !was && d3.flag fMEM_CTL_R2X_EVENT [u] then d3.fire 12 u else d3
      else if t < 80 then d2.setF fMEM_STAT_REFRESH2X [u] 0
      else d2

/-- READ_THRESHOLD_ADAPTATION: inside refresh time a controller adapts its thresholds and delays; MEM_CAL.MARGIN reports the
smallest eye margin seen, and MARGIN_LOW is set below 8 steps (R227). With CAL_FREEZE set the current values are held. -/
def execReadThresholdAdaptation (unit : Fin 20) (margin : Byte) (s : State) : Host.Outcome State Fault Refusal :=
  s.upd fun _ d =>
    let u := unit.val
    if !d.up || d.flag fMEM_STAT_FAILED [u] || d.flag fMEM_CTL_CAL_FREEZE [u] then d
    else
      let d1 := d.setF fMEM_CAL_MARGIN [u] (min margin.toNat (d.getF fMEM_CAL_MARGIN [u]))
      if d1.getF fMEM_CAL_MARGIN [u] < 8 then d1.setF fMEM_STAT_MARGIN_LOW [u] 1 else d1

/-- RETRAIN_COMPLETE: the interface of a controller has trained again, at most 2 ms after the write (R227) or after its domain has
come back on (R229). The margin starts anew with the trained values; a failed stack or module has none (R7). -/
def execRetrainComplete (unit : Fin 20) (margin : Byte) (s : State) : Host.Outcome State Fault Refusal :=
  s.upd fun _ d =>
    let u := unit.val
    if !d.retraining.contains u then d
    else
      let d0 := { d with retraining := d.retraining.filter (· ≠ u) }
      if d0.flag fMEM_STAT_FAILED [u] then d0
      else
      let d1 := d0.setF fMEM_CAL_MARGIN [u] margin.toNat
      if margin.toNat < 8 then d1.setF fMEM_STAT_MARGIN_LOW [u] 1 else d1

end Sys2Proof.Machine
end

