-- ==== Sys2Proof/Machine/Assign.lean ====
section
/-! DEFINITION. The assignment of logical engines to physical positions (R14, R102), and failed routers (R265, R355). -/
namespace Sys2Proof.Machine

/-- Logical and physical counts of a kind (Table 1-2). -/
def logicalCount (kind : Nat) : Nat := if kind = 0 then 16 else if kind = 1 then 8 else if kind = 2 then 4 else 8
def physicalCount (kind : Nat) : Nat := if kind = 0 then 18 else if kind = 1 then 9 else if kind = 2 then 5 else 8

/-- Serviceable positions of a kind, ascending (R14). -/
def Dev.servicePos (d : Dev) (y kind : Nat) : List Nat := (List.range (physicalCount kind)).filter fun p => d.serviceable y kind p

/-- Whether a yard has enough serviceable positions of every kind (R14). -/
def Dev.enoughEngines (d : Dev) : Bool :=
  [0, 1, 2, 3].all fun y => [0, 1, 2, 3].all fun kind => decide (logicalCount kind ≤ (d.servicePos y kind).length)

/-- The unused set of R102: fenced or failed positions, then the resting positions, then the highest serviceable ones, to two. -/
def Dev.unusedM (d : Dev) (y : Nat) : List Nat :=
  let r := d.cfg.yard y
  let base := (List.range 18).filter fun p => !d.serviceable y 0 p
  let add (l : List Nat) (p : Nat) : List Nat := if l.length < 2 && !l.contains p then l ++ [p] else l
  ([r.rest0, r.rest1] ++ (List.range 18).reverse).foldl (fun l p => if d.serviceable y 0 p then add l p else l) base

/-- Positions of the logical M engines: those not unused, ascending (R102). -/
def Dev.assignM (d : Dev) (y : Nat) : List Nat := ((List.range 18).filter fun p => !(d.unusedM y).contains p).take 16

/-- Positions of the logical V or S engines: the serviceable ones ascending, one skipped where there is a surplus (R14). -/
def Dev.assignVS (d : Dev) (y kind : Nat) (skip : Option Nat) : List Nat :=
  let l := d.servicePos y kind
  let out := match skip with
    | some p => if l.contains p then p else nth 0 l.reverse 0
    | none => nth 0 l.reverse 0
  if l.length = logicalCount kind + 1 then l.filter (· ≠ out) else l.take (logicalCount kind)

/-- Make the assignment of one yard and report it (R14, R102, R113, R158). -/
def Dev.assignYard (d : Dev) (y : Nat) : Dev :=
  let r := d.cfg.yard y
  let m := d.assignM y
  let un := (d.unusedM y).foldl (fun w p => putBits w p p 1) 0
  let d1 := (d.setWord .rRING_MAP [y, 0] (BitVec.ofNat 64 (pack8 (m.take 8)))).setWord .rRING_MAP [y, 1]
    (BitVec.ofNat 64 (pack8 (m.drop 8)))
  let d2 := d1.setF fRING_STAT_UNUSED [y] un
  let v := d.assignVS y 1 r.skipV
  let d3 := (List.range 8).foldl (fun d k => d.setF fENG_VPOS_POS [y, k] (nth k v k)) d2
  let sp := d.assignVS y 2 r.skipS
  let put (t : List (Nat × Nat)) (k : Nat) : List (Nat × Nat) := Tab.put k t (4 * y + k) (nth k sp k)
  { d3 with posSMap := (List.range 4).foldl put d3.posSMap }

/-- LOAD_IMAGE, START and RESTORE make the assignment in every yard (R102). -/
def Dev.assign (d : Dev) : Dev := [0, 1, 2, 3].foldl Dev.assignYard d

/-! ## Failed routers -/

def Dev.failedRouters (d : Dev) (y : Nat) : List Nat := (List.range 48).filter fun n => bit (d.word .rNOC_FAILED [y]).toNat n

/-- Routers that the healthy route of a destination goes through, from a router on (R254). -/
def routeThrough (diagBy : Bool) : Nat → Nat → Nat → List Nat
  | 0, n, _ => [n]
  | k + 1, n, dest =>
    match neighbour n (healthyPort diagBy n dest) with
    | some m => n :: routeThrough diagBy k m dest
    | none => [n]

/-- Output port of a router for a destination whose healthy route meets a failed router (R265): where the healthy route would go on
along the row, towards the destination's row, or to the row beside where it is the destination's own; where it would go on along
the column, to the column beside. Each router on the way decides anew, so the route rejoins the healthy one behind the failed
router, at most two routers longer (DESIGN CHOICE; log entry 67). -/
def detourPort (diagBy : Bool) (failed : List Nat) (n dest : Nat) : Nat :=
  let h := healthyPort diagBy n dest
  if failed.contains dest || !(routeThrough diagBy 12 n dest).any failed.contains then h
  else
    let target := (routeThrough diagBy 12 n dest).getLastD n
    if h = 1 ∨ h = 3 then
      if target / 8 > n / 8 then 2 else if target / 8 < n / 8 then 0 else if n / 8 = 0 then 2 else 0
    else if n % 8 = 0 then 1 else 3

/-- The firmware rewrites the route tables of a yard round its failed routers (R265). -/
def Dev.rewriteRoutes (d : Dev) (y : Nat) : Dev :=
  let failed := d.failedRouters y
  let diag := d.flag fNOC_CFG_DIAG [y]
  (List.range 48).foldl (fun d n => (List.range 4).foldl (fun d j =>
    d.setWord .rNOC_ROUTE [y, n, j] (BitVec.ofNat 64 (routeWord (detourPort diag failed n) j))) d) d

/-- The firmware marks a router failed (R265, R355): trigger source 15 fires where NOC_CTL.FAIL_EVENT lets it. -/
def Dev.markRouter (d : Dev) (y n : Nat) : Dev :=
  let d1 := (d.setWord .rNOC_FAILED [y] (BitVec.ofNat 64 (Nat.lor (d.word .rNOC_FAILED [y]).toNat (2 ^ n)))).rewriteRoutes y
  if d1.flag fNOC_CTL_FAIL_EVENT [y] then d1.fire 15 (64 * y + n) else d1

/-- The failed routers of a yard let no image run: more than one, or one that hosts an endpoint of Table 13-2 (R265). -/
def Dev.routersBad (d : Dev) (y : Nat) : Bool :=
  let f := d.failedRouters y
  decide (f.length > 1) || f.any fun n => !(nth [] attach n).isEmpty

end Sys2Proof.Machine
end

