-- ==== Sys2Proof/Machine/RingFlits.lean ====
section
/-! DEFINITION. Flits on the lunge rings: slots (R99, R100), nominal stops and delivery cycles (R101, R104), the lanes and K-steps a flit
carries (R107, R108). -/
namespace Sys2Proof.Machine

/-- Stops of the injection stops and nominal stops of the logical engines (Tables 1-3, 5-1). -/
def injStop (i : Nat) : Nat := 7 * i
def nominalStop (k : Nat) : Nat := if k < 5 then k + 2 else if k < 11 then k + 3 else k + 4

/-- Hops from one stop to another in the ring's direction (R100, R104). -/
def hops (ccw : Bool) (a b : Nat) : Nat := if ccw then (a + 21 - b) % 21 else (b + 21 - a) % 21

/-- Slot number of a flit that leaves injection stop `i` at sc `t` (R100). -/
def slotOf (ccw : Bool) (i t : Nat) : Nat := (t + 84 - 4 * hops ccw 0 (injStop i)) % 84

def RingFlit.slot (f : RingFlit) : Nat := slotOf f.ccw f.stop f.left
/-- The sc at which a flit is removed (R100). -/
def RingFlit.gone (f : RingFlit) : Nat := f.left + 84 * f.inj.laps
/-- Delivery cycle at logical engine `k` on lap `l` (R104). -/
def RingFlit.delivery (f : RingFlit) (k l : Nat) : Nat :=
  f.left + 4 * hops f.ccw (injStop f.stop) (nominalStop k) + 84 * (l - 1) + 8

/-- A copy of the flit is delivered to engine `k` on lap `l`: it was taken 8 sc earlier, from the flit in its slot (R103). -/
def RingFlit.copies (f : RingFlit) (k l : Nat) : Bool :=
  bit (nth 0 f.inj.snoop (l - 1)) k && !f.done.contains (16 * l + k) &&
    match f.out with
    | none => true
    | some t => decide (f.delivery k l < t + 8)

/-- Lap, from 1, of the delivery of a flit to engine `k` that has come and is not made yet. -/
def RingFlit.lapDue (f : RingFlit) (k now : Nat) : Option Nat :=
  ((List.range f.inj.laps).map (· + 1)).find? fun l => f.copies k l && decide (f.delivery k l ≤ now)

/-- Copies of a flit that has left its slot are still in the shift lanes. -/
def RingFlit.lingers (f : RingFlit) : Bool :=
  (List.range f.inj.laps).any fun l => (List.range 16).any fun k => f.copies k (l + 1)

/-- Lanes and K-steps of flit `n` of a descriptor on a lap: edge, first lane, lanes, K-steps (R107, R108). -/
structure Carry where
  row : Bool
  lane : Nat
  lanes : Nat
  ksteps : Nat
  deriving DecidableEq, Repr

def InjExt.turned (j : InjExt) (lap : Nat) : Bool := bit j.edge (2 * (lap - 1) + 1)
def InjExt.carry (j : InjExt) (n lap : Nat) : Carry :=
  let g := max 1 j.g
  if j.turned lap then ⟨!bit j.edge (2 * (lap - 1)), j.lane0 + n / g * j.kb, j.kb, j.lb⟩
  else ⟨!bit j.edge (2 * (lap - 1)), j.lane0 + n % g * j.lb, j.lb, j.kb⟩

/-- The flits of a yard that engines may still receive: those on the rings and those that open descriptors will inject (R106). -/
def Dev.flitsToCome (d : Dev) (y : Nat) : List RingFlit :=
  (d.ring.filter fun f => f.yard = y) ++
    (d.inject.filter fun b => b.yard = y).flatMap fun b =>
      (List.range (b.desc.inj.flits - b.next)).map fun i =>
        { yard := y, ccw := b.desc.inj.ccw, stop := b.desc.inj.stop, left := b.desc.inj.first + (b.next + i) * b.desc.inj.interval,
          inj := b.desc.inj, idx := b.next + i, data := [], side := [], done := [] }

/-- Steps at a rate, in quarter K-steps a step, whose entries for a manger of engine `k` flits bring by an sc (R104, R107). -/
def Dev.stepsToCome (d : Dev) (y k : Nat) (row : Bool) (grp rate by_ : Nat) : Nat :=
  ((d.flitsToCome y).map fun f =>
    (((List.range f.inj.laps).map (· + 1)).map fun l =>
      let c := f.inj.carry f.idx l
      if f.copies k l && f.delivery k l ≤ by_ && c.row == row && c.lane / 16 ≤ grp && grp < (c.lane + c.lanes) / 16 then
        c.ksteps * 4 / max 1 rate
      else 0).foldl (· + ·) 0).foldl (· + ·) 0

end Sys2Proof.Machine
end

