-- ==== Sys2Proof/Machine/Matrix.lean ====
section
/-! DEFINITION. The matrix array (04): instructions that issue on an M engine (R177 to R181), shapes and bubbles (R77, R78, R84),
tile-memory reads and mangers (R75, R81, R86, R116, R117), steps (R64, R75) and the checksum cells (R94). -/
namespace Sys2Proof.Machine

/-- Position of an M engine, and the fault of an access it makes (R353). -/
def Dev.mPos (d : Dev) (e : MEng) : Nat := d.posM e.yard.val e.idx.val
def Dev.mFault (d : Dev) (e : MEng) : FaultInfo :=
  { code := 9, detail := 0, yard := e.yard.val, kind := 0, pos := d.mPos e, unit := mNo e,
    stops := some (mNo e) }

/-- The array of an engine is fed and steps: it has not stopped (R38), and its position is not fenced (R112). -/
def Dev.arrayWorks (d : Dev) (e : MEng) : Bool := !d.isStopped (mNo e) && !d.cmdFenced e.yard.val 0 (d.mPos e)

/-! ## Loops and base registers -/

/-- A loop word issues: its body is the `len` words that follow (R178). The stream already stands at the first of them. -/
def Dev.openLoop (d : Dev) (n count len : Nat) : Dev :=
  match Tab.find d.sched.streams n with
  | none => d
  | some p => d.withSched fun s =>
      { s with streams := Tab.insert s.streams n { p with loops := (p.pc, p.pc + len - 1, count) :: p.loops } }

/-- MNOP (R180). -/
def execMnop (_e : MEng) (s : State) : Host.Outcome State Fault Refusal := s.upd fun _ d => d
/-- MLOOP (R178). -/
def execMloop (e : MEng) (count : BitVec 16) (len : BitVec 12) (s : State) : Host.Outcome State Fault Refusal :=
  s.upd fun _ d => d.openLoop (mNo e) (count.toNat + 1) (len.toNat + 1)
/-- MSETB (R179). -/
def execMsetb (e : MEng) (r : BitVec 3) (v : BitVec 32) (s : State) : Host.Outcome State Fault Refusal :=
  s.upd fun _ d => d.setMb e r.toNat v.toNat
/-- MADDB (R179). -/
def execMaddb (e : MEng) (r : BitVec 3) (v : BitVec 32) (s : State) : Host.Outcome State Fault Refusal :=
  s.upd fun _ d => d.setMb e r.toNat (d.mb e r.toNat + v.toNat)

/-! ## Shapes and time -/

/-- Current shape code (R77). -/
def Dev.shapeCode (d : Dev) (e : MEng) : Nat := d.getF fENG_MSTAT_SHAPE [e.yard.val, e.idx.val]

/-- Shape in force for deliveries: from RESHAPE + 32 the new one (R84). -/
def Dev.mangerShape (d : Dev) (e : MEng) : Shape :=
  match (d.m e).reshape with
  | some (st, c) => if d.sched.sc ≥ st + 32 then shapeOf c else shapeOf (d.shapeCode e)
  | none => shapeOf (d.shapeCode e)

/-- Shape of an MMA's steps, and the sc bubbles are counted from (R78, R84). -/
def Dev.stepShape (d : Dev) (e : MEng) (first : Nat) : Shape × Nat :=
  match (d.m e).reshape with
  | some (st, c) => if first ≥ st + 64 then (shapeOf c, st + 64) else (shapeOf (d.shapeCode e), (d.m e).count0)
  | none => (shapeOf (d.shapeCode e), (d.m e).count0)

/-- The sc of the non-bubble cycle `k` counted from `first` (R75, R78). -/
def cycleAt (period count0 first k : Nat) : Nat :=
  if period = 0 then first + k
  else
    let o := (first - count0) % (period + 1)
    let f := if o = period then first + 1 else first
    let o' := if o = period then 0 else o
    f + k + (o' + k) / period

/-- Non-bubble cycles from the first step to step `j` at cadence `n` (R75): the sc that follow the first step are numbered from 0, and
step `j` falls in the first k of them with ⌊(k + 1) n / 256⌋ = j (DEDUCED; log entry 37). -/
def stepCycle (n j : Nat) : Nat := ceilDiv (256 * j) n

def MmaRun.steps (r : MmaRun) : Nat := r.f.steps.toNat + 1
def MmaRun.lead (r : MmaRun) : Nat := r.f.lead.toNat + 17

/-- The sc of step `j` of an MMA. -/
def Dev.stepSc (d : Dev) (e : MEng) (r : MmaRun) (j : Nat) : Nat :=
  let (sh, c0) := d.stepShape e r.first
  cycleAt sh.period c0 r.first (stepCycle (r.f.cadence.toNat + 1) j)

/-- Cell rate in quarters of a K-step per step (Table 4-1), and of a pair (R73). -/
def rate4 (c : Nat) : Nat := if c = 0 then 1 else if c = 1 ∨ c = 2 then 4 else if c = 5 ∨ c = 6 then 16 else 8
def MmaRun.rate (r : MmaRun) : Nat := min (rate4 r.f.fmtRow.toNat) (rate4 r.f.fmtCol.toNat)
/-- K extent of an MMA (Table 4-2). -/
def MmaRun.depth (r : MmaRun) : Nat := r.steps * r.rate / 4

def execMma (e : MEng) (f : MmaF) (s : State) : Host.Outcome State Fault Refusal :=
  s.upd fun _ d =>
    let home := (d.mb e f.hbase.toNat + f.hoff.toNat) % 2 ^ 23
    let first := d.sched.sc + f.lead.toNat + 17 + d.latency 2
    let r : MmaRun := { f := f, home := home, first := first }
    let d1 := d.setM e { d.m e with mmas := (d.m e).mmas ++ [r] }
    d1.busyUntil (d1.stepSc e r (r.steps - 1))

/-- RESHAPE (R84). -/
def execReshape (e : MEng) (shape : BitVec 4) (s : State) : Host.Outcome State Fault Refusal :=
  s.upd fun _ d =>
    (d.setM e { d.m e with reshape := some (d.sched.sc, shape.toNat) }).busyUntil (d.sched.sc + 64)

/-- RESHAPE_COMPLETE: 64 sc on, the array is in its new shape (R84, Table 4-12). -/
def execReshapeComplete (e : MEng) (s : State) : Host.Outcome State Fault Refusal :=
  s.upd fun _ d =>
    match (d.m e).reshape with
    | none => d
    | some (st, c) =>
      if !d.arrayWorks e || decide (d.sched.sc < st + 64) then d
      else (d.setM e { d.m e with reshape := none, count0 := st + 64 }).setF fENG_MSTAT_SHAPE [e.yard.val, e.idx.val] c

/-- Whether the present sc is a bubble of an engine that has not been counted (R78). While a RESHAPE occupies the array there is none
(DESIGN CHOICE; log entry 77). -/
def Dev.bubbleDue (d : Dev) (e : MEng) : Bool :=
  let m := d.m e
  let g := (shapeOf (d.shapeCode e)).period
  g ≠ 0 && d.arrayWorks e && m.reshape.isNone && d.sched.sc ≥ m.count0 && (d.sched.sc - m.count0) % (g + 1) = g && m.bubble ≠ d.sched.sc + 1

/-- BUBBLE (R78). -/
def execBubble (e : MEng) (s : State) : Host.Outcome State Fault Refusal :=
  s.upd fun _ d =>
    if d.bubbleDue e then
      (d.setM e { d.m e with bubble := d.sched.sc + 1 }).count .rENG_MBUBBLE [e.yard.val, e.idx.val] 1
    else d

/-! ## Tile-memory reads -/

/-- A home operand in tile memory (R81, R116, R117): its base, view, TRANS, lanes, K extent and format. -/
structure HomeArray where
  base : Nat
  swz : Bool
  trans : Bool
  lanes : Nat
  depth : Nat
  fmt : Nat
  deriving DecidableEq

/-- Element index of lane `m` and K-step `k`. -/
def HomeArray.index (h : HomeArray) (m k : Nat) : Nat :=
  let row := if h.trans then m else k
  let col := if h.trans then k else m
  if h.swz then swizzle (if h.trans then h.lanes else h.depth) row col
  else row * (if h.trans then h.depth else h.lanes) + col

/-- Where its block scales lie: of lane `m` in block `k` (R81); and the first byte after them. -/
def HomeArray.scaleBase (h : HomeArray) : Nat := up64 (h.base + fmtBytes h.fmt (h.lanes * h.depth))
def HomeArray.scaleOff (h : HomeArray) (m k : Nat) : Nat := h.scaleBase + k * up64 h.lanes + m
def HomeArray.stop (h : HomeArray) (scaled : Bool) : Nat :=
  if scaled then h.scaleBase + ceilDiv h.depth 32 * up64 h.lanes else h.base + fmtBytes h.fmt (h.lanes * h.depth)

/-- Steps of an engine that have yet to be taken before step `j` of an MMA. -/
def MState.stepsBefore (m : MState) (r : MmaRun) (j : Nat) : Nat :=
  ((m.mmas.takeWhile fun x => x ≠ r).map fun x => x.steps - x.taken).foldl (· + ·) 0 + (j - r.taken)

/-- A flit carries the lanes of a manger for step `j` of an MMA (R107): the entries that the manger holds, those of tile reads under way and
those that flits bring by that step reach so far. -/
def Dev.carried (d : Dev) (e : MEng) (r : MmaRun) (row : Bool) (j g : Nat) : Bool :=
  let m := d.m e
  let held := (Tab.get [] m.mangers ((if row then 0 else 512) + g)).length
  let reads := (m.reads.filter fun x => x.row == row && x.groups.any fun q => q.1 = g).length
  decide (m.stepsBefore r j < held + reads + d.stepsToCome e.yard.val e.idx.val row g r.rate (d.stepSc e r j))

/-- The groups of an edge that the tile read of step `j` serves: all of a TILE edge, those that no flit carries of a RING edge
(R107). -/
def Dev.tileGroups (d : Dev) (e : MEng) (r : MmaRun) (sh : Shape) (row : Bool) (j : Nat) : List Nat :=
  let n := sh.paddocks * (if row then sh.rows else sh.cols) / 16
  if if row then r.f.srcRow else r.f.srcCol then (List.range n).filter fun g => !d.carried e r row j g
  else List.range n

/-- The array that serves an edge in the paddock of manger `g`, with the place of the manger's first lane in it and whether block scales
come with it: the home operand; after it the lanes of the other edge that no flit carries (R107). Where both edges are TILE, the row
operand is the home operand, read with TRANS = 0, and the column operand follows it in the same way as lanes that no flit
carries, read with the MMA's TRANS (R114, Table 6-1; DEDUCED, log entry 27). -/
def Dev.homeArray (d : Dev) (e : MEng) (r : MmaRun) (sh : Shape) (row : Bool) (j g : Nat) : HomeArray × Nat × Bool :=
  let per := (if row then sh.rows else sh.cols) / 16
  let p := g / per
  let homeRow := !r.f.srcRow
  let fmtH := if homeRow then r.f.fmtRow.toNat else r.f.fmtCol.toNat
  let sclH := if homeRow then r.f.sclRow else r.f.sclCol
  let lanesH := if homeRow then sh.rows else sh.cols
  let both := !r.f.srcRow && !r.f.srcCol
  let h : HomeArray :=
    { base := r.home % 2 ^ 22 + p * r.f.stride.toNat, swz := bit r.home 22, trans := !both && r.f.trans, lanes := lanesH,
      depth := r.depth, fmt := fmtH }
  if row = homeRow then (h, (g - p * per) * 16, sclH)
  else
    let mine := (d.tileGroups e r sh row j).filter fun x => x / per = p
    let h' : HomeArray :=
      { h with base := up64 (h.stop sclH), trans := r.f.trans, lanes := 16 * mine.length,
               fmt := if row then r.f.fmtRow.toNat else r.f.fmtCol.toNat }
    (h', 16 * mine.idxOf g, if row then r.f.sclRow else r.f.sclCol)

/-- K-steps that step `j` takes, and in FP32 which byte of its element (R73). -/
def MmaRun.kSteps (r : MmaRun) (j : Nat) : List Nat :=
  if r.rate < 4 then [j / 4] else (List.range (r.rate / 4)).map fun i => j * (r.rate / 4) + i

/-- A step's bits of one lane from its elements: ascending K-steps, or the byte of an FP32 element (R73). -/
def MmaRun.laneBits (r : MmaRun) (j fmt : Nat) (els : List Nat) : Nat :=
  if r.rate < 4 then nth 0 els 0 / 256 ^ (j % 4) % 256
  else els.foldr (fun v acc => v + acc * 2 ^ fmtBits fmt) 0

/-- Whether a block of 32 K-steps begins in step `j` (R81). -/
def MmaRun.blockStarts (r : MmaRun) (j : Nat) : Bool :=
  (r.rate ≥ 4 || j % 4 = 0) && (nth 1 (r.kSteps j) 0) % 32 = 0

/-- Blocks of 32 × 32 elements that one access of the transposed-block path reads (R206), and the rows of each in an sc. -/
def blocksPerSc (fmt : Nat) : Nat :=
  let w := fmtBits fmt
  if w ≥ 16 then 1 else if w = 4 then 4 else 2

/-- First offsets of the rows a block of a swizzled operand occupies (R206). -/
def HomeArray.blockRows (h : HomeArray) (lane32 k32 : Nat) : List Nat :=
  let b := if h.trans then k32 * (h.lanes / 32) + lane32 else lane32 * (h.depth / 32) + k32
  (List.range (2 * fmtBits h.fmt)).map fun i => h.base / 64 * 64 + 64 * (2 * fmtBits h.fmt * b + i)

/-- Rows that the read of step `j` presents for one array (R79, R88, R206; log entry 76). A plain operand gives the rows of the step's
elements, each twice where the transposed path halves the supply. A swizzled one gives the blocks that serve the steps of a
window, the blocks of each 32 lanes in a step of their own, an FP32 block in two. -/
def HomeArray.rows (h : HomeArray) (r : MmaRun) (j : Nat) : List Nat :=
  let bytes := fmtBytes h.fmt h.lanes
  if !h.swz then
    let k := nth 0 (r.kSteps j) 0
    let lo := h.base + (if r.rate < 4 then k * bytes + j % 4 * (bytes / 4) else fmtBytes h.fmt (k * h.lanes))
    let n := if r.rate < 4 then bytes / 4 else fmtBytes h.fmt ((r.kSteps j).length * h.lanes)
    let rs := rowsOf 1 ((List.range (n / 64 + 2)).map fun i => min (lo + 64 * i) (lo + n - 1))
    if h.trans then rs.flatMap fun o => [o, o] else rs
  else
    let nb := blocksPerSc h.fmt
    let window := max 1 (128 * nb / max 1 r.rate)
    let at_ := j % window
    let halves := if fmtBits h.fmt = 32 then 2 else 1
    (List.range (h.lanes / 32)).flatMap fun lg => (List.range halves).flatMap fun half =>
      if (halves * lg + half) % window ≠ at_ then []
      else (List.range nb).flatMap fun b =>
        let k32 := nb * (j / window) + b
        if k32 ≥ ceilDiv h.depth 32 then []
        else
          let rs := h.blockRows lg k32
          if halves = 2 then (rs.drop (32 * half)).take 32 else rs

/-- Rows that the block scales of a step present on the scale port, a row for each 8 bytes, which is what the port of a bank carries
(R81). -/
def HomeArray.scaleRows (h : HomeArray) (r : MmaRun) (j : Nat) : List Nat :=
  if !r.blockStarts j then []
  else (List.range (ceilDiv h.lanes 8)).map fun i => h.scaleOff (8 * i) (nth 0 (r.kSteps j) 0 / 32) / 64 * 64

/-- Offsets that the lanes of one manger's entry of step `j` lie at in tile memory, lane by lane and K-step by K-step, and those of the
scale bytes that come with it (R75, R81). -/
def HomeArray.entryOffs (h : HomeArray) (r : MmaRun) (j lane : Nat) : List Nat :=
  (List.range 16).flatMap fun i => (r.kSteps j).flatMap fun k => (elemOffs h.fmt (h.index (lane + i) k)).map fun o => h.base + o
def HomeArray.entryScales (h : HomeArray) (r : MmaRun) (j lane : Nat) (scl : Bool) : List Nat :=
  if scl && r.blockStarts j then (List.range 16).map fun i => h.scaleOff (lane + i) (nth 0 (r.kSteps j) 0 / 32) else []

/-- The entry from those bytes. -/
def HomeArray.entry (h : HomeArray) (r : MmaRun) (j lane : Nat) (bs ss : List Nat) : Entry :=
  let ks := r.kSteps j
  let n := (elemOffs h.fmt 0).length
  let el (i k : Nat) : Nat :=
    elemFrom h.fmt (h.index (lane + i) (nth 0 ks k)) ((bs.drop ((i * ks.length + k) * n)).take n)
  ⟨(List.range 16).map fun i => r.laneBits j h.fmt ((List.range ks.length).map (el i)), ss⟩

/-- The tile read of step `j` of an MMA for one edge: one access of the edge's port and, where block scales come with it, one of the
scale port (R202). -/
def Dev.readStep (d : Dev) (e : MEng) (r : MmaRun) (row : Bool) (j : Nat) (ecc : Ecc) : Dev :=
  let y := e.yard.val
  let sh := (d.stepShape e r.first).1
  let parts := (d.tileGroups e r sh row j).map fun g => (g, d.homeArray e r sh row j g)
  let arrays := parts.map (·.2) |>.eraseDups
  let offs := parts.flatMap fun p => p.2.1.entryOffs r j p.2.2.1
  let d0 := match offs with | o :: _ => d.strike ecc (onchipAddr y 1 e.idx.val o) | [] => d
  let (bs, d1) := d0.gather (d0.mFault e) y 1 e.idx.val offs
  let (ss, d2) := d1.gather (d1.mFault e) y 1 e.idx.val (parts.flatMap fun p => p.2.1.entryScales r j p.2.2.1 p.2.2.2)
  let hs := (arrays.map (·.1)).eraseDups
  let (a1, d3) := d2.present y 1 e.idx.val false (if row then 0 else 1) 0 true (hs.flatMap fun h => h.rows r j)
  let scaled := (arrays.filter (·.2.2)).map (·.1) |>.eraseDups
  let (a2, d4) := d3.present y 1 e.idx.val false 2 0 true (scaled.flatMap fun h => h.scaleRows r j)
  let entries := parts.foldl (fun (acc : List (Nat × Entry) × List Nat × List Nat) p =>
    let n := (p.2.1.entryOffs r j p.2.2.1).length
    let m := (p.2.1.entryScales r j p.2.2.1 p.2.2.2).length
    (acc.1 ++ [(p.1, p.2.1.entry r j p.2.2.1 (acc.2.1.take n) (acc.2.2.take m))], acc.2.1.drop n, acc.2.2.drop m)) ([], bs, ss)
  d4.setM e { d4.m e with reads := (d4.m e).reads ++ [⟨row, j, entries.1, [a1, a2]⟩] }

/-- The MMA whose next tile read of an edge has come (R75), with its place in the list. -/
def Dev.readDue (d : Dev) (e : MEng) (row : Bool) : Option (Nat × MmaRun) :=
  let ms := (d.m e).mmas
  (List.range ms.length).findSome? fun i =>
    match ms[i]? with
    | none => none
    | some r =>
      let j := if row then r.readRow else r.readCol
      if d.arrayWorks e ∧ j < r.steps ∧ d.stepSc e r j ≤ d.sched.sc + r.lead + d.latency 2 then some (i, r) else none

/-- The conflict delay of a tile read, once every bank it asked has served it (R87, R202). -/
def Dev.readDelay (d : Dev) (x : TileRead) : Option Nat :=
  if x.accs.all fun a => (d.delayOf a).2 then some ((x.accs.map fun a => (d.delayOf a).1).foldl max 0) else none

/-- The MMA whose next tile delivery of an edge has come, with the read and its conflict delay (R75, R87): the reads of an edge reach
the mangers in their order. -/
def Dev.feedDue (d : Dev) (e : MEng) (row : Bool) : Option (Nat × MmaRun × TileRead × Nat) :=
  let m := d.m e
  let at_ := (List.range m.mmas.length).find? fun i =>
    match m.mmas[i]? with
    | none => false
    | some r => decide ((if row then r.fedRow else r.fedCol) < (if row then r.readRow else r.readCol))
  match at_.bind (fun i => m.mmas[i]?.map fun r => (i, r)), m.reads.find? fun x => x.row == row with
  | some (i, r), some x =>
    match d.readDelay x with
    | none => none
    | some delay =>
      if d.arrayWorks e ∧ d.stepSc e r (if row then r.fedRow else r.fedCol) + delay ≤ d.sched.sc + r.lead then some (i, r, x, delay) else none
  | _, _ => none

/-! ## Mangers -/

def mangerKey (row : Bool) (g : Nat) : Nat := (if row then 0 else 512) + g

/-- Deliver an entry to a manger (R86): MANGER_FULL when it holds 32. -/
def Dev.feedManger (d : Dev) (e : MEng) (row : Bool) (g : Nat) (en : Entry) : Dev :=
  let k := mangerKey row g
  let q := Tab.get [] (d.m e).mangers k
  if q.length ≥ 32 then (d.violation 2 e.yard.val 0 (d.mPos e)).stopUnit (mNo e)
  else
    let d1 := d.setM e { d.m e with mangers := Tab.put [] (d.m e).mangers k (q ++ [en]) }
    d1.maxF fENG_MMANGER_PEAK [e.yard.val, e.idx.val] (q.length + 1)

/-- MANGER_DELIVERY (R75, R86, R87): `read` reads the tile memory of an edge's next step, L + t_rd before it; the other form
brings the oldest such read to the mangers, L before the step or its conflict delay later. -/
def execMangerDelivery (e : MEng) (row read : Bool) (ecc : Ecc) (s : State) :
    Host.Outcome State Fault Refusal :=
  s.upd fun _ d =>
    if read then
      match d.readDue e row with
      | none => d
      | some (i, r) =>
        let d1 := d.readStep e r row (if row then r.readRow else r.readCol) ecc
        let r' : MmaRun := if row then { r with readRow := r.readRow + 1 } else { r with readCol := r.readCol + 1 }
        d1.setM e { d1.m e with mmas := setNth (d1.m e).mmas i r' }
    else
      match d.feedDue e row with
      | some (i, r, x, delay) =>
        let r' : MmaRun := if row then { r with fedRow := r.fedRow + 1 } else { r with fedCol := r.fedCol + 1 }
        let m := d.m e
        let d1 := d.setM e { m with mmas := setNth m.mmas i r', reads := m.reads.erase x }
        let d2 := x.accs.foldl Dev.forget d1
        (x.groups.foldl (fun d ge => d.feedManger e row ge.1 ge.2) d2).maxF fENG_MMANGER_MAX_DELAY [e.yard.val, e.idx.val] delay
      | none => d

/-! ## Steps -/

/-- Mangers that are active in a shape (R77, R86). -/
def Shape.mangers (s : Shape) : List Nat :=
  (List.range (s.paddocks * s.rows / 16)).map (mangerKey true) ++
    (List.range (s.paddocks * s.cols / 16)).map (mangerKey false)

/-- The values a step gives the lanes of an edge (R63, R73): per lane the values of its K-steps, ascending. `els` holds each
lane's bits, `sc` its block scale. -/
def stepVals (fmt rate : Nat) (scaled : Bool) (els scs : List Nat) : List (List Val) :=
  (List.range els.length).map fun i =>
    let w := nth 0 els i
    let v (b : Nat) : Val := scaledVal fmt scaled (nth 127 scs i) b
    if rate < 4 then [v w]
    else (List.range (rate / 4)).map fun k => v (w / 2 ^ (k * fmtBits fmt) % 2 ^ fmtBits fmt)

/-- Sum of a list of exact values (R64). -/
def sumVals (l : List Val) (a : Val) : Val := l.foldl Val.add a

/-- One cell's step (R64): the accumulator after its products, rounded once, and the flags. -/
def cellStep (acc : Nat) (rs cs : List Val) : Nat × Flags :=
  let ps := List.zipWith Val.mul rs cs
  let t := sumVals ps (val32 acc)
  (t.toFp32, flagsDot rs cs [val32 acc] t)

/-- A checksum cell's step (R94): per sub-block the FP32 sum of 16 lanes of the crossing operand, times the cell's own. -/
def laneSum (ls : List (List Val)) (k : Nat) : Val := val32 (ls.foldl (fun a l => fadd a (nth .nan l k).toFp32) 0)
def checkStep (acc : Nat) (parts : List (List Val × List (List Val))) : Nat :=
  (parts.foldl (fun t p => (List.range p.1.length).foldl
    (fun t k => t.add ((nth .nan p.1 k).mul (laneSum p.2 k))) t) (val32 acc)).toFp32

def absVals (l : List (List Val)) : List (List Val) := l.map fun x => x.map Val.abs

/-- The accumulator after a step of all its cells (R64, R94). `rv` and `cv` hold the operands of every row and column lane,
paddock by paddock. -/
def AccState.step (a : AccState) (code : Nat) (sc : Nat) (rv cv : List (List Val)) : AccState × Flags :=
  let sh := shapeOf code
  let cells := (List.range (sh.paddocks * sh.rows * sh.cols)).map fun n =>
    let (p, r, c) := sh.place n
    cellStep (nth 0 a.vals n) (nth [] rv (p * sh.rows + r)) (nth [] cv (p * sh.cols + c))
  let br := sh.rows / 16
  let bc := sh.cols / 16
  let rowLanes (n : Nat) : List (List Val) := (rv.drop (n / (br * bc) * sh.rows + n / bc % br * 16)).take 16
  let colLanes (n : Nat) : List (List Val) := (cv.drop (n / (br * bc) * sh.cols + n % bc * 16)).take 16
  let rowParts (abs : Bool) (p : Nat) := (List.range 16).map fun q =>
    let n := p / 16 * 16 + q
    let r := nth [] (rowLanes n) (p % 16)
    if abs then (r.map Val.abs, absVals (colLanes n)) else (r, colLanes n)
  let colParts (abs : Bool) (q : Nat) := (List.range 16).map fun p =>
    let n := p * 16 + q / 16
    let c := nth [] (colLanes n) (q % 16)
    if abs then (c.map Val.abs, absVals (rowLanes n)) else (c, rowLanes n)
  let upd (old : List Nat) (parts : Nat → List (List Val × List (List Val))) : List Nat :=
    (List.range 256).map fun i => checkStep (nth 0 old i) (parts i)
  ({ vals := cells.map (·.1), shape := code, ready := sc + sh.rows + sh.cols - 2,
     rowSum := upd a.rowSum (rowParts false), rowMag := upd a.rowMag (rowParts true),
     colSum := upd a.colSum (colParts false), colMag := upd a.colMag (colParts true) },
   Flags.all (cells.map (·.2)))

/-- Set sticky flags of ENG_MSTAT (R76). -/
def Dev.mFlags (d : Dev) (e : MEng) (f : Flags) : Dev :=
  let i := [e.yard.val, e.idx.val]
  let d1 := if f.nv then d.setF fENG_MSTAT_NV i 1 else d
  let d2 := if f.of then d1.setF fENG_MSTAT_OF i 1 else d1
  if f.uf then d2.setF fENG_MSTAT_UF i 1 else d2

/-- Take one entry from every manger of an edge: its lanes and the scales now in force. -/
def takeEdge (m : MState) (row : Bool) (groups : Nat) : List Nat × List Nat :=
  let es := (List.range groups).map fun g => (Tab.get [] m.mangers (mangerKey row g)).headD ⟨[], []⟩
  ((List.range groups).flatMap fun g => let e := nth ⟨[], []⟩ es g; (List.range 16).map fun i => nth 0 e.lanes i,
   (List.range groups).flatMap fun g =>
     let e := nth ⟨[], []⟩ es g
     let s := if e.scales.isEmpty then Tab.get [] m.scales (mangerKey row g) else e.scales
     (List.range 16).map fun i => nth 127 s i)

/-- Split a flat list of lane scales back into the table of mangers. -/
def putScales (t : List (Nat × List Nat)) (row : Bool) (groups : Nat) (scs : List Nat) : List (Nat × List Nat) :=
  (List.range groups).foldl (fun t g => Tab.insert t (mangerKey row g) ((scs.drop (16 * g)).take 16)) t

/-- The MMA whose next step has come, with its place in the list (R75). -/
def Dev.stepDue (d : Dev) (e : MEng) : Option (Nat × MmaRun) :=
  let ms := (d.m e).mmas
  (List.range ms.length).findSome? fun i =>
    match ms[i]? with
    | none => none
    | some r => if d.arrayWorks e ∧ d.stepSc e r r.taken ≤ d.sched.sc then some (i, r) else none

/-- The first step of an MMA keeps the gap of Table 4-5 from the step before it (R84). -/
def MState.gapKept (m : MState) (r : MmaRun) (code sc : Nat) : Bool :=
  match m.last with
  | none => true
  | some (t, old, srcRow, srcCol) =>
    if old ≠ code then decide (t + (shapeOf old).rows + (shapeOf old).cols + 63 ≤ sc)
    else if (srcRow, srcCol) = (r.f.srcRow, r.f.srcCol) then true else decide (t + 3 ≤ sc)

/-- The drain of an accumulator that a step writes gives values the spec does not define for the rows it has not read (R3, R85). -/
def MState.spoilDrains (m : MState) (acc : Bool) : MState :=
  { m with drains := m.drains.map fun x => if x.f.acc = acc ∧ x.read < 256 then { x with undef := true } else x }

/-- ARRAY_STEP (R75, R86): a step with every active manger filled, else MANGER_EMPTY. A tile whose first step breaks a gap of Table
4-5 has values the spec does not give: free ones (R84; log entry 77). An FP32 MMA whose STEPS is not a multiple of 4 ends inside a
K-step, which adds nothing (R73; DESIGN CHOICE, log entry 77). -/
def execArrayStep (e : MEng) (ecc : Ecc) (s : State) : Host.Outcome State Fault Refusal :=
  s.upd fun _ d0 =>
    let y := e.yard.val
    let idx := [y, e.idx.val]
    let d := d0.unitEcc ecc 0 y 0 (d0.mPos e) (mNo e)
    match d.stepDue e with
    | none => d
    | some (i, r) =>
      let code := d.shapeCode e
      let sh := shapeOf code
      let m := d.m e
      let lows := sh.mangers.map fun k => (Tab.get [] m.mangers k).length
      let low := lows.foldl min 32
      let d1 := if low < d.getF fENG_MMANGER_LOW idx then d.setF fENG_MMANGER_LOW idx low else d
      if low = 0 then (d1.violation 1 y 0 (d.mPos e)).stopUnit (mNo e)
      else
        let gr := sh.paddocks * sh.rows / 16
        let gc := sh.paddocks * sh.cols / 16
        let (rl, rs) := takeEdge m true gr
        let (cl, cs) := takeEdge m false gc
        let rate := r.rate
        let quarter := r.taken % 4
        let wide := decide (rate < 4)
        let old (k : Nat) : List Nat := if wide && quarter ≠ 0 then Tab.get [] m.part k else []
        let join (o n : List Nat) : List Nat :=
          if wide then (List.range n.length).map fun l => nth 0 o l + nth 0 n l * 256 ^ quarter else n
        let rl' := join (old 0) rl
        let cl' := join (old 1) cl
        let last := r.taken + 1 = r.steps
        let r' := { r with taken := r.taken + 1 }
        let m1 : MState :=
          { m with
            mmas := if last then m.mmas.eraseIdx i else setNth m.mmas i r'
            mangers := sh.mangers.foldl (fun t k => Tab.put [] t k ((Tab.get [] t k).drop 1)) m.mangers
            scales := putScales (putScales m.scales true gr rs) false gc cs
            part := if wide && !last then [(0, rl'), (1, cl')] else []
            last := some (d.sched.sc, code, r.f.srcRow, r.f.srcCol) }
        let fresh (a : AccState) : AccState := if r.taken = 0 ∧ !r.f.init then {} else a
        let acc := fresh (if r.f.acc then m.accB else m.accA)
        let d2 := d1.count .rENG_MSTEPS idx 1
        let m2 := m1.spoilDrains r.f.acc
        let spoilt := decide (r.taken = 0) && !m.gapKept r code d.sched.sc
        let put (a : AccState) : MState := if r.f.acc then { m2 with accB := a } else { m2 with accA := a }
        let spoil (a : AccState) (d : Dev) : Dev :=
          { d.setM e (put { a with vals := (List.range 65536).map fun n => Config.freeWord (d.nonce + n) % 2 ^ 32 }) with
            nonce := d.nonce + 65536 }
        if wide && quarter ≠ 3 then
          let a := { acc with shape := code, ready := d.sched.sc + sh.rows + sh.cols - 2 }
          if spoilt then spoil a d2 else d2.setM e (put a)
        else
          let rv := stepVals r.f.fmtRow.toNat rate r.f.sclRow rl' rs
          let cv := stepVals r.f.fmtCol.toNat rate r.f.sclCol cl' cs
          let (a, fl) := acc.step code d.sched.sc rv cv
          (if spoilt then spoil a d2 else d2.setM e (put a)).mFlags e fl

end Sys2Proof.Machine
end

