-- ==== Sys2Proof/Machine/Static.lean ====
section
/-! DEFINITION. What the loader refuses in the fields of one engine instruction (check 7 of R196): the cases of R51, R59, R62,
R64, R74, R77, R92, R143, R146 to R148, R152, R154, R155, R166, R167, R177, R181, R183 to R185 that need the instruction alone. -/
namespace Sys2Proof.Machine

/-- A format code that is not reserved (Table 3-1). -/
def fmtOk (c : BitVec 4) : Bool := decide (c.toNat < 8)

/-! ## Matrix -/

/-- R51, R62, R64, R74; LEAD and STEPS cannot leave their ranges in the encoding. -/
def mmaOk (f : MmaF) : Bool :=
  fmtOk f.fmtRow && fmtOk f.fmtCol && pairOk f.fmtRow.toNat f.fmtCol.toNat &&
  (!f.sclRow || scaleOk f.fmtRow.toNat) && (!f.sclCol || scaleOk f.fmtCol.toNat)

/-- R51, R59, R92, R181, Table 4-6. -/
def mdrnOk (f : MdrnF) : Bool :=
  decide (f.dest.toNat ≤ 4) && (f.dest ≠ 0 || decide (f.aoff.toNat ≤ 3)) && fmtOk f.fmt && decide (f.rm.toNat < 3) &&
  decide (f.func.toNat ≤ 9) && (!(f.dest = 2 || f.dest = 3) || f.fmt = 0)

/-! ## Vector lane instructions -/

/-- How a lane instruction takes its fields: types allowed, sources of B and C (`reg` a register, `src` any source kind,
`bcast`, `imm`, `mreg` a mask register, `none` unused). -/
inductive SrcKind where
  | none | reg | src | bcast | imm | mreg
  deriving DecidableEq, Repr

structure LaneRule where
  types : List Nat
  a : SrcKind := .reg
  b : SrcKind := .none
  c : SrcKind := .none
  /-- Bits [28:27] are 0: VD names a mask register. -/
  maskDest : Bool := false
  /-- SUB is the comparison of VCMP. -/
  sub : Bool := false

/-- A broadcast descriptor within its register (R146, R183). -/
def bcastOk (ty : Nat) (ext : BitVec 32) : Bool :=
  let x := ext.toNat
  let n := if ty = 1 then 2048 else 1024
  let s := bits x 20 17
  bits x 31 21 = 0 && decide (s ≤ 11) && decide (bits x 16 6 + (n - 1) / 2 ^ s < n)

/-- One source's kind, register field and extension. -/
def srcOk (k : SrcKind) (ty : Nat) (kind : BitVec 2) (reg : BitVec 6) (ext : BitVec 32) : Bool :=
  match k with
  | .none => kind = 0 && reg = 0 && ext = 0
  | .reg => kind = 0 && ext = 0
  | .mreg => kind = 0 && decide (reg.toNat < 16) && ext = 0
  | .bcast => kind = 1 && reg = 0 && bcastOk ty ext
  | .imm => kind = 2 && reg = 0
  | .src =>
    if kind = 0 then ext = 0 else if kind = 1 then reg = 0 && bcastOk ty ext else kind = 2 && reg = 0

def laneOk (r : LaneRule) (f : LaneF) : Bool :=
  r.types.contains f.ty.toNat && (r.a ≠ .mreg || decide (f.va.toNat < 16)) && (!r.maskDest || decide (f.vd.toNat < 16)) &&
  (if r.sub then decide (f.sub.toNat ≤ 4) else f.sub = 0) &&
  srcOk r.b f.ty.toNat f.bk f.vb f.ext1 && srcOk r.c f.ty.toNat f.ck f.vc f.ext2

def anyType : List Nat := [0, 1, 2]
def ruleBinary : LaneRule := { types := anyType, b := .src }
def ruleFma : LaneRule := { types := [0, 1], b := .src, c := .src }
def ruleUnary : LaneRule := { types := anyType }
def ruleCmp : LaneRule := { types := anyType, b := .src, maskDest := true, sub := true }
def ruleSel : LaneRule := { types := anyType, b := .src, c := .mreg }
def ruleLogic : LaneRule := { types := [2], b := .src }
/-- Mask logic has no element type, so TYPE is unused (R177). -/
def ruleMask : LaneRule := { types := [0], a := .mreg, b := .mreg, maskDest := true }
def ruleMaskNot : LaneRule := { types := [0], a := .mreg, maskDest := true }
def ruleSpecial : LaneRule := { types := [0, 1] }
def ruleSmx : LaneRule := { types := [0], b := .bcast, c := .imm }
def ruleSmnorm : LaneRule := { types := [0], b := .bcast }
def ruleSmstat : LaneRule := { types := [0], b := .reg }

/-- A positive and finite FP32 value (R154). -/
def positiveFinite (w : Nat) : Bool :=
  match val32 w with
  | .fin n m _ => !n && m ≠ 0
  | .inf _ | .nan => false

/-- A positive normal FP32 value (R155). -/
def positiveNormal (w : Nat) : Bool := decide (0x00800000 ≤ w % 2 ^ 32 ∧ w % 2 ^ 32 < 0x7F800000)

/-! ## Other vector instructions -/

/-- R152, Table 9-8. -/
def vredOk (f : VredF) : Bool :=
  let b16 := f.ty = 1
  let n := if b16 then 2048 else 1024
  let s := f.s.toNat
  decide (f.ty.toNat ≤ 2) && decide (f.kind.toNat ≤ 6) && !(f.kind = 6 && f.ty = 2) && (!f.i8 || f.ty = 2) &&
  decide (1 ≤ s ∧ s ≤ if b16 then 11 else 10) && decide (f.dbase.toNat + n / 2 ^ s ≤ 1024)

/-- Whether a conversion between register types narrows; what only a narrowing carries is otherwise unused (R148, R177). -/
def vcvtNarrows (f : VcvtF) : Bool := f.dty ≠ f.sty && !(f.dty = 0 && f.sty = 1)

/-- R59, R177, R183. -/
def vcvtOk (f : VcvtF) : Bool :=
  decide (f.dty.toNat ≤ 2) && decide (f.sty.toNat ≤ 2) && decide (f.rm.toNat < 3) && f.i ≠ 7 &&
  (vcvtNarrows f || (f.rm = 0 && !f.sat && f.tid = 0 && f.draw = 0 && f.s = 0 && f.i = 0))

/-- The pairings of R147. -/
def loadPair (ty fmt : Nat) : Bool :=
  if ty = 0 then decide (fmt < 8) else if ty = 1 then fmt = 1 || narrowFmt fmt else fmt = 7 || fmt = 0

def vldOk (f : VldF) : Bool := decide (f.ty.toNat ≤ 2) && decide (f.space.toNat ≤ 1) && loadPair f.ty.toNat f.fmt.toNat

/-- Whether a store narrows: a tensor scale narrows in any format, and without one a format that holds every element of the type
does not (log entry 33). -/
def vstNarrows (f : VstF) : Bool :=
  f.ld.scale ≠ 0 || !(f.ld.fmt = 0 || (f.ld.ty = 1 && f.ld.fmt = 1))

/-- R59, R148, R177, R183: a masked FP6 or FP4 store is refused. What only a narrowing carries is otherwise unused, but for the
position of elements in a tile memory, whose view the offset of the run selects (R118); ROWS32 is a tile memory's. -/
def vstOk (f : VstF) : Bool :=
  let tile := f.ld.space = 1 || f.ld.space = 2
  decide (f.ld.ty.toNat ≤ 2) && decide (f.ld.space.toNat ≤ 3) && fmtOk f.ld.fmt && decide (f.rm.toNat < 3) && f.i ≠ 7 &&
  (f.mask = 0 || !(f.ld.fmt = 5 || f.ld.fmt = 6)) && (vstNarrows f || (f.rm = 0 && !f.sat && f.tid = 0 && f.draw = 0)) &&
  (vstNarrows f || tile || (f.s = 0 && f.i = 0)) && (tile || f.rows32 = 0)

/-- R155: STRIDE is at least 512 × N; N and B cannot leave their ranges in the encoding. -/
def cholOk (f : BlockF) (delta : BitVec 32) : Bool :=
  positiveNormal delta.toNat && decide (f.n.toNat + 1 ≤ f.stride.toNat)

/-! ## Scalar -/

/-- A two-source instruction: IMM replaces RB, and RC is unused (R177, R184). -/
def intTwo (f : IntF) : Bool := f.rc = 0 && (if f.imm then f.rb = 0 else f.val = 0)
/-- SFFMA and SSEL read RC as a register. -/
def intThree (f : IntF) : Bool := if f.imm then f.rb = 0 else f.val = 0
def intOne (f : IntF) : Bool := f.rc = 0 && f.rb = 0 && !f.imm && f.val = 0
/-- SCMP: the condition is RC[2:0], at most 5, and RC[5:3] is reserved (R184, R185). -/
def scmpOk (f : IntF) : Bool := decide (f.rc.toNat ≤ 5) && (if f.imm then f.rb = 0 else f.val = 0)
/-- SFCVT: RC[5:3] is reserved, mode 0b11 is refused, and the SR operand is used only under SR (R184). -/
def sfcvtOk (f : IntF) : Bool :=
  decide (f.rc.toNat < 6) &&
  (if f.rc.toNat / 2 = 2 then (if f.imm then f.rb = 0 else f.val = 0) else f.rb = 0 && !f.imm && f.val = 0)

/-- FLAGS of a UUPD: GSRC 0b11 and rounding mode 0b11 are refused (R59, R167, Table 8-5). -/
def uupdOk (f : UupdF) : Bool :=
  decide (f.unit.toNat < 20) && bits f.flags.toNat 1 0 ≠ 3 && bits f.flags.toNat 4 3 ≠ 3 && decide (f.sreg.toNat + 3 ≤ 63)

/-- CMASK has at most four bits, never bit 15; the groups end at 255 (R167). -/
def usetcOk (f : UsetcF) : Bool :=
  decide (f.unit.toNat < 20) && decide (popCount 16 f.cmask.toNat ≤ 4) && !bit f.cmask.toNat 15 &&
  decide (f.group.toNat + f.gcount.toNat + 1 ≤ 256) && decide (f.sreg.toNat + 2 ≤ 63)

/-! ## All instructions -/

/-- The fields of an engine instruction pass the loader; every other command carries no encoded fields. -/
def instrFieldsOk (i : Instr) : Bool :=
  match i with
  | .mma _ f => mmaOk f
  | .reshape _ shape => decide (shape.toNat < 8)
  | .mdrn _ f _ => mdrnOk f
  | .vadd _ f | .vsub _ f | .vmul _ f | .vmax _ f | .vmin _ f => laneOk ruleBinary f
  | .vfma _ f => laneOk ruleFma f
  | .vabs _ f | .vneg _ f => laneOk ruleUnary f
  | .vcmp _ f => laneOk ruleCmp f
  | .vsel _ f => laneOk ruleSel f
  | .vand _ f | .vor _ f | .vxor _ f | .vshl _ f | .vshr _ f | .vsra _ f => laneOk ruleLogic f
  | .vmand _ f | .vmor _ f | .vmxor _ f => laneOk ruleMask f
  | .vmnot _ f => laneOk ruleMaskNot f
  | .vexp2 _ f | .vrcp _ f | .vlog2 _ f | .vrsqrt _ f | .vtanh _ f | .vsig _ f | .verf _ f => laneOk ruleSpecial f
  | .vsmx _ f => laneOk ruleSmx f && positiveFinite f.ext2.toNat
  | .vsmnorm _ f => laneOk ruleSmnorm f
  | .vsmstat _ f => laneOk ruleSmstat f && f.vd.toNat % 2 = 0
  | .vsmrec _ f => laneOk ruleSmx f && positiveFinite f.ext2.toNat && f.ext1.toNat % 2 = 0
  | .vcvt _ f => vcvtOk f
  | .vred _ f => vredOk f
  | .vld _ f _ => vldOk f
  | .vst _ f => vstOk f
  | .vchol _ f _ delta _ => cholOk f delta
  | .sadd _ f | .ssub _ f | .smul _ f | .sand _ f | .sor _ f | .sxor _ f | .sshl _ f | .sshr _ f | .ssra _ f
  | .sfadd _ f | .sfmul _ f => intTwo f
  | .ssel _ f | .sffma _ f => intThree f
  | .scmp _ f => scmpOk f
  | .sfcvt _ f => sfcvtOk f
  | .sfrcp _ f | .sfrsqrt _ f => intOne f
  | .sst _ f => !f.sgn
  | .uupd _ f => uupdOk f
  | .usetc _ f => usetcOk f
  | .urls _ unit _ sreg => decide (unit.toNat < 20) && decide (sreg.toNat + 1 ≤ 63)
  | .trkrd _ _ _ word => decide (word.toNat ≤ 17)
  | _ => true

end Sys2Proof.Machine
end

