-- ==== Sys2Proof/Machine/VecMem.lean ====
section
/-! DEFINITION. Conversions (R55 to R61, R148), loads and stores (R147 to R149), drain-queue releases (R151) and reductions (R152,
R153). -/
namespace Sys2Proof.Machine

/-- Position of a V engine, and the fault of an access it makes (R353). -/
def Dev.vFault (d : Dev) (e : VEng) : FaultInfo :=
  { code := 9, detail := 0, yard := e.yard.val, kind := 1, pos := d.posV e.yard.val e.idx.val, unit := vNo e,
    stops := some (vNo e) }

/-- Logical coordinates of element `i` of a narrowing: segment width 2^s, origin pair (R148). -/
def Dev.vCoords (d : Dev) (e : VEng) (s i n : Nat) : Nat × Nat :=
  ((d.vb e i + n / 2 ^ s) % 2 ^ 32, (d.vb e (i + 1) + n % 2 ^ s) % 2 ^ 32)

/-- Rounding mode of element `n` of a narrowing (R59, R61, R148). -/
def Dev.vMode (d : Dev) (e : VEng) (rm tid draw s i n : Nat) : Mode :=
  if rm = 2 then
    let rc := d.vCoords e s i n
    .sr (srNumber d.seed tid (d.vb e draw) rc.1 rc.2)
  else modeOf rm 0

/-! ## VCVT -/

/-- Round a value to an integer and clamp it to 32 bits, as R57 does for INT8 (log entry 33). -/
def narrowI32 (m : Mode) (v : Val) : Nat × Nat :=
  match v with
  | .nan => (0, 1)
  | .inf n => (if n then 2 ^ 31 else 2 ^ 31 - 1, 2)
  | .fin n man exp =>
    let q := if exp > 64 then (if man = 0 then 0 else 2 ^ 64) else roundUnit m man exp 0
    let top := if n then 2 ^ 31 else 2 ^ 31 - 1
    if q > top then (wrap32 (if n then -(top : Int) else top), 2)
    else (wrap32 (if n then -(q : Int) else q), if q = 0 && man != 0 then 4 else 0)

/-- One element from a type to another. -/
def convert (dty sty : Nat) (m : Mode) (sat : Bool) (w : Nat) : Nat × Nat :=
  if sty = 2 ∧ dty = 2 then (w, 0)
  else
    let v := if sty = 2 then Val.ofInt (signed 32 w) else laneVal sty w
    if dty = 2 then narrowI32 m v
    else let r := narrow (if dty = 1 then 1 else 0) m sat false v; (r.1, r.2.word)

/-- VCVT: element e of the destination from element e of the source; a destination element beyond the source's count has no
stated value (log entry 33). -/
def execVcvt (e : VEng) (f : VcvtF) (s : State) : Host.Outcome State Fault Refusal :=
  s.vUpd e fun d =>
    let sty := f.sty.toNat
    let dty := f.dty.toNat
    let m := d.maskRead e f.mask.toNat
    let a := d.operand e sty 0 f.va.toNat 0
    let rs := (List.range (tyCount dty)).map fun n =>
      if n < tyCount sty then
        convert dty sty (d.vMode e f.rm.toNat f.tid.toNat f.draw.toNat f.s.toNat f.i.toNat n) f.sat (nth 0 a n)
      else (Config.freeWord (d.nonce + n) % 65536, 0)
    let d3 := if tyCount dty > tyCount sty then { d with nonce := d.nonce + 2048 } else d
    d3.vDeliver e f.vd.toNat dty (d3.latency clsAlu) m rs

/-! ## VLD and VST -/

/-- Offset of a load or store (R147): base register plus signed offset, modulo 2^32. -/
def Dev.vOff (d : Dev) (e : VEng) (f : VldF) : Nat := wrap 32 ((d.vb e f.base.toNat : Int) + signed 28 f.off.toNat)

/-- An element of a load's format in a register type (R147): widened, scaled, rounded once; I32 takes INT8 sign-extended and
FP32 bits unchanged, or under a tensor scale the value (log entry 33). -/
def loadElem (ty fmt : Nat) (scale : Int) (w : Nat) : Nat × Nat :=
  if ty = 2 then
    if scale ≠ 0 then narrowI32 .rne ((elemVal fmt false w).scale scale)
    else (if fmt = 7 then wrap32 (signed 8 w) else w % 2 ^ 32, 0)
  else
    let r := narrow (if ty = 1 then 1 else 0) .rne false false ((elemVal fmt false w).scale scale)
    (r.1, r.2.word)

/-- VLD (R147, R149, R150): memory is read at issue, the register written at V_MEM. -/
def execVld (e : VEng) (f : VldF) (ecc : Ecc) (s : State) : Host.Outcome State Fault Refusal :=
  s.vUpd e fun d =>
    let y := e.yard.val
    let ty := f.ty.toNat
    let fmt := f.fmt.toNat
    let off := d.vOff e f / 128 * 128
    let space := if f.space = 0 then 3 else 4
    let n := tyCount ty
    let (bs, d2) := d.fetch ecc (d.vFault e) y space e.idx.val (addrRange off (fmtBytes fmt n))
    let scale := signed 8 f.scale.toNat
    let els := unpackElems fmt bs n
    d2.vDeliver e f.vd.toNat ty (d2.latency clsMem) (2 ^ 2048 - 1)
      ((List.range n).map fun i => loadElem ty fmt scale (nth 0 els i))

/-- An element of a register in a store's format (R66, R148): scaled exactly, then narrowed. An I32 element stored as FP32
without a tensor scale keeps its bits, as a load takes them (log entry 33). -/
def storeElem (ty fmt : Nat) (scale : Int) (m : Mode) (sat : Bool) (w : Nat) : Nat × Nat :=
  if ty = 2 ∧ fmt = 0 ∧ scale = 0 then (w, 0)
  else
    let v := if ty = 2 then Val.ofInt (signed 32 w) else laneVal ty w
    let r := narrow fmt m sat false (v.scale scale)
    (r.1, r.2.word)

/-- Bytes that stand at consecutive offsets, enabled or not, of masked elements. -/
def maskedBytes (fmt : Nat) (mask : Nat) (els : List Nat) : List (Option Nat) :=
  let w := fmtBits fmt
  if w ≥ 8 then
    (List.range els.length).flatMap fun i =>
      if bit mask i then (leBytes (w / 8) (nth 0 els i)).map some else List.replicate (w / 8) none
  else (packElems fmt els).map some

/-- VST (R148, R149, R257). -/
def execVst (e : VEng) (f : VstF) (s : State) : Host.Outcome State Fault Refusal :=
  s.vUpd e fun d =>
    let y := e.yard.val
    let k := e.idx.val
    let ty := f.ld.ty.toNat
    let fmt := f.ld.fmt.toNat
    let off := d.vOff e f.ld
    let m := d.maskRead e f.mask.toNat
    let a := d.operand e ty 0 f.ld.vd.toNat 0
    let scale := signed 8 f.ld.scale.toNat
    let n := tyCount ty
    let rs := (List.range n).map fun i =>
      storeElem ty fmt scale (d.vMode e f.rm.toNat f.tid.toNat f.draw.toNat f.s.toNat f.i.toNat i) f.sat (nth 0 a i)
    let codes := rs.map (·.1)
    let flags := orAll ((List.range n).map fun i => if bit m i then (nth (0, 0) rs i).2 else 0)
    let d3 := d.vFlags e (d.latency clsMem) flags
    let plain (base : Nat) : List (Nat × Nat × Nat) :=
      (List.range n).flatMap fun i => if bit m i then elemWrites fmt base i (nth 0 codes i) else []
    if f.ld.space = 0 then d3.scatterTo (d3.vFault e) y 3 k (d3.latency clsMem) (plain off)
    else if f.ld.space = 3 then
      let bs := maskedBytes fmt m codes
      (List.range (ceilDiv bs.length 256)).foldl (fun d j =>
        let data := (bs.drop (256 * j)).take 256
        if data.all Option.isNone then d
        else d.handFlit y (16 + k) (j % 2) (j / 2 % 2) (3 + j / 4) (.mem (some y) 0 0xFF (off + 256 * j)) data) d3
    else
      let tm := 2 * k + (f.ld.space.toNat - 1)
      let ws :=
        if bit off 22 then
          let base := off - 2 ^ 22
          (List.range n).flatMap fun i =>
            if bit m i then
              let rc := d3.vCoords e f.s.toNat f.i.toNat i
              elemWrites fmt base (swizzle (32 * f.rows32.toNat) rc.1 rc.2) (nth 0 codes i)
            else []
        else plain off
      d3.scatterTo (d3.vFault e) y 1 tm (d3.latency 1) ws

/-- VREL (R151): the slots are free from the end of the issue sc. -/
def execVrel (e : VEng) (slots : BitVec 4) (s : State) : Host.Outcome State Fault Refusal :=
  s.vUpd e fun d => d.deliver 1 (.release e slots.toNat)

/-! ## VRED -/

/-- An element in the tree: its value, its index in the segment, the flags of its node's own operation. -/
structure RedElem where
  val : Nat
  idx : Nat
  flags : Nat

/-- The better of two for MAX, MIN, ARGMAX, ARGMIN: ties keep the left. -/
def redPick (int max : Bool) (a b : RedElem) : RedElem :=
  let key (w : Nat) : Int := if int then signed 32 w else orderKey w
  let better := if max then key b.val > key a.val else key b.val < key a.val
  let p := if better then b else a
  { p with val := if int then p.val else canon32 p.val, flags := Nat.lor a.flags b.flags }

/-- Combine two present nodes (R152, R153). -/
def redJoin (ty kind : Nat) (a b : RedElem) : RedElem :=
  if kind = 0 ∨ kind = 1 ∨ kind = 6 then
    let r := if kind = 1 then mulElem (if ty = 2 then 2 else 0) a.val b.val else addElem (if ty = 2 then 2 else 0) a.val b.val
    { a with val := r.1, flags := Nat.lor (Nat.lor a.flags b.flags) r.2 }
  else redPick (ty = 2) (kind = 2 ∨ kind = 4) a b

/-- One level of the tree: an absent input passes the other through (R152). -/
def redLevel (ty kind : Nat) : List (Option RedElem) → List (Option RedElem)
  | a :: b :: rest =>
    (match a, b with
      | some x, some y => some (redJoin ty kind x y)
      | some x, none => some x
      | none, y => y) :: redLevel ty kind rest
  | [a] => [a]
  | [] => []

def redLevels (ty kind : Nat) : Nat → List (Option RedElem) → List (Option RedElem)
  | 0, l => l
  | n + 1, l => redLevels ty kind n (redLevel ty kind l)

/-- Result of an empty segment (Table 7-6). -/
def redEmpty (ty kind : Nat) (i8 : Bool) : Nat :=
  if kind = 0 then 0
  else if kind = 1 then (if ty = 2 then 1 else 0x3F800000)
  else if kind = 2 then (if ty ≠ 2 then inf32' true else if i8 then wrap32 (-128) else 2 ^ 31)
  else if kind = 3 then (if ty ≠ 2 then inf32' false else if i8 then 127 else 2 ^ 31 - 1)
  else if kind = 6 then 0x7FC00000 else 0xFFFFFFFF
where
  inf32' (neg : Bool) : Nat := if neg then 0xFF800000 else 0x7F800000

/-- Result of a segment: value and flags. -/
def redResult (ty kind : Nat) (i8 : Bool) (count : Nat) (r : Option RedElem) : Nat × Nat :=
  match r with
  | none => (redEmpty ty kind i8, if kind ≥ 4 then 16 else 0)
  | some x =>
    if kind = 4 ∨ kind = 5 then (x.idx, 0)
    else if kind = 6 then
      let v := (val32 x.val).div (Val.ofInt (count : Int))
      (v.toFp32, Nat.lor x.flags (flags32 [val32 x.val] v).word)
    else if (kind = 2 ∨ kind = 3) ∧ ty ≠ 2 then (canon32 x.val, x.flags)
    else (x.val, x.flags)

/-- VRED. -/
def execVred (e : VEng) (f : VredF) (s : State) : Host.Outcome State Fault Refusal :=
  s.vUpd e fun d =>
    let y := e.yard.val
    let ty := f.ty.toNat
    let kind := f.kind.toNat
    let lv := f.s.toNat
    let w := 2 ^ lv
    let m := d.maskRead e f.mask.toNat
    let a := d.operand e ty 0 f.va.toNat 0
    let n := tyCount ty
    let els := (List.range n).map fun i =>
      if bit m i then some ⟨if ty = 1 then widen 1 (nth 0 a i) else nth 0 a i, i % w, 0⟩ else none
    let tops := redLevels ty kind lv els
    let segs := n / w
    let count (j : Nat) : Nat := ((List.range w).filter fun i => bit m (j * w + i)).length
    let rs := (List.range segs).map fun j => redResult ty kind f.i8 (count j) (nth none tops j)
    let empty := (List.range segs).map fun j => (nth none tops j).isNone
    let lat := d.latency clsRed
    let flags := orAll (rs.map (·.2))
    let d3 := (d.deliver lat (.vreg e f.vd.toNat false f.dbase.toNat (rs.map fun r => some r.1))).deliver lat
      (.vmask e f.emask.toNat f.dbase.toNat (empty.map some))
    let d4 := d3.vFlags e lat flags
    if kind ≥ 4 then d4.count .rENG_VEMPTY_CNT [y, e.idx.val] (empty.filter id).length else d4

end Sys2Proof.Machine
end

