-- ==== Sys2Proof/Machine/VecBlock.lean ====
section
/-! DEFINITION. Batched Cholesky factorisation and triangular solve (R155 to R157). Both are computed from memory as it stands at
issue and every result is in place at issue + T. -/
namespace Sys2Proof.Machine

/-- A row-major block of FP32 values. -/
abbrev Block := List (List Nat)

def Block.at (a : Block) (i j : Nat) : Nat := nth 0 (nth [] a i) j

/-- a × b, and fma(−a, b, c), rounded once, with flags. -/
def mulF (a b : Nat) : Nat × Nat := mulElem 0 a b
def fnmaF (a b c : Nat) : Nat × Nat :=
  finish 0 [val32 a, val32 b, val32 c] (((val32 a).neg.mul (val32 b)).add (val32 c))

/-- p ≥ DELTA, false for a NaN. -/
def geF (p delta : Nat) : Bool := cmpElem 3 0 delta p

/-- What VCHOL has made of a block so far. -/
structure CholState where
  a : Block
  d : List Nat := []
  damped : Nat := 0
  flags : Nat := 0

/-- Column step `j` of R155. -/
def cholStep (n delta : Nat) (s : CholState) (j : Nat) : CholState :=
  let p0 := s.a.at j j
  let bad := !geF p0 delta
  let p := if bad then delta else p0
  let q := fRsqrt p
  let diag := mulF p q.1
  let col := (List.range n).map fun i => if i < j then (s.a.at i j, 0) else if i = j then diag else mulF (s.a.at i j) q.1
  let rows := (List.range n).map fun i =>
    if i < j then (nth [] s.a i).map fun x => (x, 0)
    else (List.range n).map fun k =>
      if k = j then nth (0, 0) col i
      else if j < k ∧ k ≤ i then fnmaF (nth (0, 0) col i).1 (nth (0, 0) col k).1 (s.a.at i k)
      else (s.a.at i k, 0)
  { a := rows.map fun r => r.map (·.1), d := s.d ++ [q.1], damped := s.damped + b2n bad,
    flags := orAll (s.flags :: q.2 :: (rows.map fun r => orAll (r.map (·.2)))) }

/-- A block factorised: its upper part is cleared (R155). -/
def cholBlock (n delta : Nat) (a : Block) : CholState :=
  let s := (List.range n).foldl (cholStep n delta) { a := a }
  { s with a := (List.range n).map fun i => (List.range n).map fun k => if k > i then 0 else s.a.at i k }

/-- Row operations of VTRSM on one block of right-hand sides (R156). -/
def trsmBlock (n k : Nat) (trans : Bool) (a : Block) (dg : List Nat) (y : Block) : Block × Nat :=
  let order := if trans then (List.range n).reverse else List.range n
  order.foldl (fun (st : Block × Nat) j =>
    let yj := (List.range k).map fun c => mulF (st.1.at j c) (nth 0 dg j)
    let rows := (List.range n).map fun i =>
      if i = j then yj
      else if (if trans then i < j else j < i) then
        let f := if trans then a.at j i else a.at i j
        (List.range k).map fun c => fnmaF f (nth (0, 0) yj c).1 (st.1.at i c)
      else (List.range k).map fun c => (st.1.at i c, 0)
    (rows.map fun r => r.map (·.1), orAll (st.2 :: rows.map fun r => orAll (r.map (·.2))))) (y, 0)

/-- Byte offsets of a block of `n` rows of `k` values, row stride 512 B (R155). -/
def blockOffs (base n k : Nat) : List Nat :=
  (List.range n).flatMap fun i => (List.range (4 * k)).map fun b => base + 512 * i + b

/-- Read a block. -/
def Dev.readBlock (d : Dev) (ecc : Ecc) (e : VEng) (base n k : Nat) : Block × Dev :=
  let (bs, d1) := d.fetch ecc (d.vFault e) e.yard.val 3 e.idx.val (blockOffs base n k)
  ((List.range n).map fun i => (List.range k).map fun c => leNat ((bs.drop (4 * (i * k + c))).take 4), d1)

/-- Writes of a block. -/
def blockWrites (base : Nat) (a : Block) : List (Nat × Nat × Nat) :=
  (List.range a.length).flatMap fun i =>
    (List.range (nth [] a i).length).flatMap fun c =>
      (List.range 4).map fun b => (base + 512 * i + 4 * c + b, 255, a.at i c / 256 ^ b % 256)

/-- Offsets of block `b`, of its reciprocal diagonal and of its right-hand sides. -/
def Dev.blockBase (d : Dev) (e : VEng) (f : BlockF) (b : Nat) : Nat :=
  (d.vb e f.base.toNat + 512 * f.block.toNat + b * (512 * f.stride.toNat)) % 2 ^ 32
def Dev.diagBase (d : Dev) (e : VEng) (f : BlockF) (b : Nat) : Nat :=
  (d.vb e f.base.toNat + 512 * f.diag.toNat + 512 * b) % 2 ^ 32

/-- The sum of R157 over the column steps. -/
def columnTime (n b : Nat) : Nat := ((List.range n).map fun m => ceilDiv (b * m) 8).foldl (· + ·) 0

def Dev.cholTime (d : Dev) (n b : Nat) : Nat :=
  n * (d.latency clsQuarter + d.latency clsAlu) + columnTime n b + d.latency clsMem
def Dev.trsmTime (d : Dev) (n b : Nat) : Nat := n * (2 * d.latency clsAlu) + columnTime n b + d.latency clsMem

/-- VCHOL (R155). -/
def execVchol (e : VEng) (f : BlockF) (md : BitVec 4) (delta : BitVec 32) (ecc : Ecc) (s : State) : Host.Outcome State Fault Refusal :=
  s.vUpd e fun d =>
    let n := f.n.toNat + 1
    let b := f.b.toNat + 1
    let t := d.cholTime n b
    let (cs, d1) := (List.range b).foldl
      (fun (acc : List CholState × Dev) i =>
        let (a, d') := acc.2.readBlock (if i = 0 then ecc else .none) e (acc.2.blockBase e f i) n n
        (acc.1 ++ [cholBlock n delta.toNat a], d')) ([], d)
    let ws := (List.range b).flatMap fun i =>
      let c : CholState := nth { a := [] } cs i
      blockWrites (d.blockBase e f i) c.a ++ blockWrites (d.diagBase e f i) [c.d]
    let d2 := d1.scatterTo (d1.vFault e) e.yard.val 3 e.idx.val t ws
    let damped : Nat := (cs.map (·.damped)).foldl (· + ·) 0
    let d3 := d2.deliver t (.vmask e md.toNat 0 (cs.map fun c => some (decide (c.damped > 0))))
    let d4 := d3.vFlags e t (Nat.lor (orAll (cs.map (·.flags))) (if damped > 0 then 32 else 0))
    d4.count .rENG_VCHOL_CNT [e.yard.val, e.idx.val] damped

/-- VTRSM (R156). -/
def execVtrsm (e : VEng) (f : BlockF) (trans : Bool) (k : BitVec 7) (ybase : BitVec 3) (y ystride : BitVec 13) (ecc : Ecc) (s : State) :
    Host.Outcome State Fault Refusal :=
  s.vUpd e fun d =>
    let n := f.n.toNat + 1
    let b := f.b.toNat + 1
    let kk := k.toNat + 1
    let t := d.trsmTime n b
    let yAt (i : Nat) : Nat := (d.vb e ybase.toNat + 512 * y.toNat + i * (512 * ystride.toNat)) % 2 ^ 32
    let (ws, flags, d1) := (List.range b).foldl
      (fun (acc : List (Nat × Nat × Nat) × Nat × Dev) i =>
        let (a, da) := acc.2.2.readBlock (if i = 0 then ecc else .none) e (d.blockBase e f i) n n
        let (g, db) := da.readBlock .none e (d.diagBase e f i) 1 n
        let (r, dc) := db.readBlock .none e (yAt i) n kk
        let (x, fl) := trsmBlock n kk trans a (nth [] g 0) r
        (acc.1 ++ blockWrites (yAt i) x, Nat.lor acc.2.1 fl, dc)) ([], 0, d)
    (d1.scatterTo (d1.vFault e) e.yard.val 3 e.idx.val t ws).vFlags e t flags

end Sys2Proof.Machine
end

