-- ==== Sys2Proof/Machine/Words.lean ====
section
/-! DEFINITION. The words of engine instructions (Tables 9-1 to 9-10): an encoder, and a decoder that accepts exactly the
words the encoder makes, so that a word with a reserved bit set is refused (R177). -/
namespace Sys2Proof.Machine

/-- An M or V word from its operands, opcode and issue delta (Table 9-1). -/
def longWord (ops : BitVec 108) (op : BitVec 8) (delta : BitVec 12) : BitVec 128 := ops ++ op ++ delta

/-- An S word from its operands, opcode and issue delta (Table 9-1). -/
def shortWord (ops : BitVec 44) (op : BitVec 8) (delta : BitVec 12) : BitVec 64 := ops ++ op ++ delta

def ofB (b : Bool) : BitVec 1 := BitVec.ofBool b

/-! ## Matrix words (Table 9-6) -/

def mmaOps (f : MmaF) : BitVec 108 :=
  0#17 ++ f.stride ++ f.hoff ++ f.hbase ++ ofB f.trans ++ ofB f.srcCol ++ ofB f.srcRow ++ ofB f.sclCol ++ ofB f.sclRow
    ++ f.fmtCol ++ f.fmtRow ++ f.lead ++ f.cadence ++ f.steps ++ ofB f.init ++ ofB f.acc

def mdrnOps (f : MdrnF) : BitVec 108 :=
  0#46 ++ f.profile ++ ofB f.drop ++ f.func ++ ofB f.sat ++ f.rm ++ f.fmt ++ f.aoff ++ f.abase ++ f.dest ++ ofB f.acc

def loopOps (count : BitVec 16) (len : BitVec 12) : BitVec 108 := 0#80 ++ len ++ count
def baseOps (r : BitVec 3) (v : BitVec 32) : BitVec 108 := 0#73 ++ v ++ r

def encodeM (delta : BitVec 12) (i : Instr) : Option (BitVec 128) :=
  match i with
  | .mnop _ => some (longWord 0 0x00 delta)
  | .mloop _ count len => some (longWord (loopOps count len) 0x01 delta)
  | .msetb _ r v => some (longWord (baseOps r v) 0x04 delta)
  | .maddb _ r v => some (longWord (baseOps r v) 0x05 delta)
  | .mma _ f => some (longWord (mmaOps f) 0x10 delta)
  | .reshape _ shape => some (longWord (0#104 ++ shape) 0x11 delta)
  | .mdrn _ f _ => some (longWord (mdrnOps f) 0x12 delta)
  | _ => none

/-- Bits of a long word, from `lo` on. -/
abbrev lb (w : BitVec 128) (lo len : Nat) : BitVec len := w.extractLsb' lo len
/-- One bit of a long word. -/
abbrev lbit (w : BitVec 128) (i : Nat) : Bool := w.getLsbD i

def mmaOf (w : BitVec 128) : MmaF :=
  { acc := lbit w 20, init := lbit w 21, steps := lb w 22 16, cadence := lb w 38 8, lead := lb w 46 4,
    fmtRow := lb w 50 4, fmtCol := lb w 54 4, sclRow := lbit w 58, sclCol := lbit w 59, srcRow := lbit w 60,
    srcCol := lbit w 61, trans := lbit w 62, hbase := lb w 63 3, hoff := lb w 66 23, stride := lb w 89 22 }

def mdrnOf (w : BitVec 128) : MdrnF :=
  { acc := lbit w 20, dest := lb w 21 3, abase := lb w 24 3, aoff := lb w 27 27, fmt := lb w 54 4, rm := lb w 58 2,
    sat := lbit w 60, func := lb w 61 4, drop := lbit w 65, profile := lb w 66 16 }

/-- The instruction that a matrix word's fields spell, reserved bits aside. -/
def fieldsM (e : MEng) (w : BitVec 128) : Option Instr :=
  let op := lb w 12 8
  if op = 0x00 then some (.mnop e)
  else if op = 0x01 then some (.mloop e (lb w 20 16) (lb w 36 12))
  else if op = 0x04 then some (.msetb e (lb w 20 3) (lb w 23 32))
  else if op = 0x05 then some (.maddb e (lb w 20 3) (lb w 23 32))
  else if op = 0x10 then some (.mma e (mmaOf w))
  else if op = 0x11 then some (.reshape e (lb w 20 4))
  else if op = 0x12 then some (.mdrn e (mdrnOf w) .none)
  else none

/-- Decode a matrix word: its issue delta and its instruction (R177). -/
def decodeM (e : MEng) (w : BitVec 128) : Option (BitVec 12 × Instr) :=
  match fieldsM e w with
  | none => none
  | some i => if encodeM (lb w 0 12) i = some w then some (lb w 0 12, i) else none

/-! ## Vector words (Tables 9-7 to 9-9) -/

def laneOps (f : LaneF) : BitVec 108 :=
  f.ext2 ++ f.ext1 ++ 0#5 ++ f.sub ++ f.ck ++ f.bk ++ f.mask ++ f.vc ++ f.vb ++ f.va ++ f.vd ++ f.ty

def vredOps (f : VredF) : BitVec 108 :=
  0#45 ++ ofB f.i8 ++ f.emask ++ f.s ++ f.dbase ++ 0#5 ++ f.kind ++ 0#4 ++ f.mask ++ 0#12 ++ f.va ++ f.vd ++ f.ty

def vcvtOps (f : VcvtF) : BitVec 108 :=
  0#38 ++ f.i ++ f.s ++ f.draw ++ f.tid ++ 0#2 ++ ofB f.sat ++ f.rm ++ 0#1 ++ f.sty ++ 0#4 ++ f.mask ++ 0#12
    ++ f.va ++ f.vd ++ f.dty

def vldOps (f : VldF) : BitVec 55 := f.scale ++ f.fmt ++ f.space ++ f.off ++ f.base ++ f.vd ++ f.ty

def vstOps (f : VstF) : BitVec 108 :=
  0#4 ++ f.rows32 ++ f.i ++ f.s ++ f.draw ++ f.tid ++ ofB f.sat ++ f.rm ++ f.mask ++ vldOps f.ld

def blockOps (f : BlockF) : BitVec 55 := f.diag ++ f.b ++ f.n ++ f.stride ++ f.block ++ f.base

/-- Opcode and fields of a lane instruction (Table 9-3). -/
def laneOp (i : Instr) : Option (BitVec 8 × LaneF) :=
  match i with
  | .vadd _ f => some (0x10, f)
  | .vsub _ f => some (0x11, f)
  | .vmul _ f => some (0x12, f)
  | .vfma _ f => some (0x13, f)
  | .vmax _ f => some (0x14, f)
  | .vmin _ f => some (0x15, f)
  | .vabs _ f => some (0x16, f)
  | .vneg _ f => some (0x17, f)
  | .vcmp _ f => some (0x18, f)
  | .vsel _ f => some (0x19, f)
  | .vand _ f => some (0x20, f)
  | .vor _ f => some (0x21, f)
  | .vxor _ f => some (0x22, f)
  | .vshl _ f => some (0x23, f)
  | .vshr _ f => some (0x24, f)
  | .vsra _ f => some (0x25, f)
  | .vmand _ f => some (0x28, f)
  | .vmor _ f => some (0x29, f)
  | .vmxor _ f => some (0x2A, f)
  | .vmnot _ f => some (0x2B, f)
  | .vexp2 _ f => some (0x30, f)
  | .vrcp _ f => some (0x31, f)
  | .vlog2 _ f => some (0x32, f)
  | .vrsqrt _ f => some (0x33, f)
  | .vtanh _ f => some (0x34, f)
  | .vsig _ f => some (0x35, f)
  | .verf _ f => some (0x36, f)
  | .vsmx _ f => some (0x38, f)
  | .vsmnorm _ f => some (0x39, f)
  | .vsmstat _ f => some (0x3A, f)
  | .vsmrec _ f => some (0x3B, f)
  | _ => none

/-- The lane instruction of an opcode (Table 9-3). -/
def laneInstr (e : VEng) (op : BitVec 8) (f : LaneF) : Option Instr :=
  if op = 0x10 then some (.vadd e f)
  else if op = 0x11 then some (.vsub e f)
  else if op = 0x12 then some (.vmul e f)
  else if op = 0x13 then some (.vfma e f)
  else if op = 0x14 then some (.vmax e f)
  else if op = 0x15 then some (.vmin e f)
  else if op = 0x16 then some (.vabs e f)
  else if op = 0x17 then some (.vneg e f)
  else if op = 0x18 then some (.vcmp e f)
  else if op = 0x19 then some (.vsel e f)
  else if op = 0x20 then some (.vand e f)
  else if op = 0x21 then some (.vor e f)
  else if op = 0x22 then some (.vxor e f)
  else if op = 0x23 then some (.vshl e f)
  else if op = 0x24 then some (.vshr e f)
  else if op = 0x25 then some (.vsra e f)
  else if op = 0x28 then some (.vmand e f)
  else if op = 0x29 then some (.vmor e f)
  else if op = 0x2A then some (.vmxor e f)
  else if op = 0x2B then some (.vmnot e f)
  else if op = 0x30 then some (.vexp2 e f)
  else if op = 0x31 then some (.vrcp e f)
  else if op = 0x32 then some (.vlog2 e f)
  else if op = 0x33 then some (.vrsqrt e f)
  else if op = 0x34 then some (.vtanh e f)
  else if op = 0x35 then some (.vsig e f)
  else if op = 0x36 then some (.verf e f)
  else if op = 0x38 then some (.vsmx e f)
  else if op = 0x39 then some (.vsmnorm e f)
  else if op = 0x3A then some (.vsmstat e f)
  else if op = 0x3B then some (.vsmrec e f)
  else none

def encodeV (delta : BitVec 12) (i : Instr) : Option (BitVec 128) :=
  match i with
  | .vnop _ => some (longWord 0 0x00 delta)
  | .vloop _ count len => some (longWord (loopOps count len) 0x01 delta)
  | .vsetb _ r v => some (longWord (baseOps r v) 0x04 delta)
  | .vaddb _ r v => some (longWord (baseOps r v) 0x05 delta)
  | .vcvt _ f => some (longWord (vcvtOps f) 0x1A delta)
  | .vred _ f => some (longWord (vredOps f) 0x40 delta)
  | .vld _ f _ => some (longWord (0#53 ++ vldOps f) 0x48 delta)
  | .vst _ f => some (longWord (vstOps f) 0x49 delta)
  | .vrel _ slots => some (longWord (0#104 ++ slots) 0x4A delta)
  | .vchol _ f md dl _ => some (longWord (0#17 ++ dl ++ md ++ blockOps f) 0x50 delta)
  | .vtrsm _ f tr k yb y ys _ => some (longWord (0#16 ++ ys ++ y ++ yb ++ k ++ ofB tr ++ blockOps f) 0x51 delta)
  | i => (laneOp i).map fun o => longWord (laneOps o.2) o.1 delta

def laneOf (w : BitVec 128) : LaneF :=
  { ty := lb w 20 3, vd := lb w 23 6, va := lb w 29 6, vb := lb w 35 6, vc := lb w 41 6, mask := lb w 47 4,
    bk := lb w 51 2, ck := lb w 53 2, sub := lb w 55 4, ext1 := lb w 64 32, ext2 := lb w 96 32 }

def vredOf (w : BitVec 128) : VredF :=
  { ty := lb w 20 3, vd := lb w 23 6, va := lb w 29 6, mask := lb w 47 4, kind := lb w 55 4, dbase := lb w 64 10,
    s := lb w 74 4, emask := lb w 78 4, i8 := lbit w 82 }

def vcvtOf (w : BitVec 128) : VcvtF :=
  { dty := lb w 20 3, vd := lb w 23 6, va := lb w 29 6, mask := lb w 47 4, sty := lb w 55 3, rm := lb w 59 2,
    sat := lbit w 61, tid := lb w 64 16, draw := lb w 80 3, s := lb w 83 4, i := lb w 87 3 }

def vldOf (w : BitVec 128) : VldF :=
  { ty := lb w 20 3, vd := lb w 23 6, base := lb w 29 3, off := lb w 32 28, space := lb w 60 3, fmt := lb w 63 4,
    scale := lb w 67 8 }

def vstOf (w : BitVec 128) : VstF :=
  { ld := vldOf w, mask := lb w 75 4, rm := lb w 79 2, sat := lbit w 81, tid := lb w 82 16, draw := lb w 98 3,
    s := lb w 101 4, i := lb w 105 3, rows32 := lb w 108 16 }

def blockOf (w : BitVec 128) : BlockF :=
  { base := lb w 20 3, block := lb w 23 13, stride := lb w 36 13, n := lb w 49 7, b := lb w 56 6, diag := lb w 62 13 }

/-- The instruction that a vector word's fields spell, reserved bits aside. -/
def fieldsV (e : VEng) (w : BitVec 128) : Option Instr :=
  let op := lb w 12 8
  if op = 0x00 then some (.vnop e)
  else if op = 0x01 then some (.vloop e (lb w 20 16) (lb w 36 12))
  else if op = 0x04 then some (.vsetb e (lb w 20 3) (lb w 23 32))
  else if op = 0x05 then some (.vaddb e (lb w 20 3) (lb w 23 32))
  else if op = 0x1A then some (.vcvt e (vcvtOf w))
  else if op = 0x40 then some (.vred e (vredOf w))
  else if op = 0x48 then some (.vld e (vldOf w) .none)
  else if op = 0x49 then some (.vst e (vstOf w))
  else if op = 0x4A then some (.vrel e (lb w 20 4))
  else if op = 0x50 then some (.vchol e (blockOf w) (lb w 75 4) (lb w 79 32) .none)
  else if op = 0x51 then
    some (.vtrsm e (blockOf w) (lbit w 75) (lb w 76 7) (lb w 83 3) (lb w 86 13) (lb w 99 13) .none)
  else laneInstr e op (laneOf w)

/-- Decode a vector word: its issue delta and its instruction (R177). -/
def decodeV (e : VEng) (w : BitVec 128) : Option (BitVec 12 × Instr) :=
  match fieldsV e w with
  | none => none
  | some i => if encodeV (lb w 0 12) i = some w then some (lb w 0 12, i) else none

/-! ## Scalar words (Table 9-10) -/

def intOps (f : IntF) : BitVec 44 := f.val ++ ofB f.imm ++ f.rc ++ f.rb ++ f.ra ++ f.rd
def memOps (f : MemF) : BitVec 44 := f.off ++ ofB f.sgn ++ f.size ++ f.areg ++ f.r
def xstartOps (f : XstartF) : BitVec 44 := f.due ++ f.off ++ f.areg ++ ofB f.xsel
def uupdOps (f : UupdF) : BitVec 44 := 0#3 ++ f.sreg ++ f.shard ++ f.group ++ f.flags ++ ofB f.sparse ++ f.unit
def usetcOps (f : UsetcF) : BitVec 44 := 0#1 ++ f.sreg ++ f.cmask ++ f.gcount ++ f.group ++ f.unit

/-- Opcode and fields of an integer, compare, select or FP instruction (Table 9-4). -/
def intOp (i : Instr) : Option (BitVec 8 × IntF) :=
  match i with
  | .sadd _ f => some (0x10, f)
  | .ssub _ f => some (0x11, f)
  | .smul _ f => some (0x12, f)
  | .sand _ f => some (0x13, f)
  | .sor _ f => some (0x14, f)
  | .sxor _ f => some (0x15, f)
  | .sshl _ f => some (0x16, f)
  | .sshr _ f => some (0x17, f)
  | .ssra _ f => some (0x18, f)
  | .scmp _ f => some (0x19, f)
  | .ssel _ f => some (0x1A, f)
  | .sfadd _ f => some (0x30, f)
  | .sfmul _ f => some (0x31, f)
  | .sffma _ f => some (0x32, f)
  | .sfcvt _ f => some (0x33, f)
  | .sfrcp _ f => some (0x34, f)
  | .sfrsqrt _ f => some (0x35, f)
  | _ => none

/-- The integer, compare, select or FP instruction of an opcode (Table 9-4). -/
def intInstr (e : SEng) (op : BitVec 8) (f : IntF) : Option Instr :=
  if op = 0x10 then some (.sadd e f)
  else if op = 0x11 then some (.ssub e f)
  else if op = 0x12 then some (.smul e f)
  else if op = 0x13 then some (.sand e f)
  else if op = 0x14 then some (.sor e f)
  else if op = 0x15 then some (.sxor e f)
  else if op = 0x16 then some (.sshl e f)
  else if op = 0x17 then some (.sshr e f)
  else if op = 0x18 then some (.ssra e f)
  else if op = 0x19 then some (.scmp e f)
  else if op = 0x1A then some (.ssel e f)
  else if op = 0x30 then some (.sfadd e f)
  else if op = 0x31 then some (.sfmul e f)
  else if op = 0x32 then some (.sffma e f)
  else if op = 0x33 then some (.sfcvt e f)
  else if op = 0x34 then some (.sfrcp e f)
  else if op = 0x35 then some (.sfrsqrt e f)
  else none

def encodeS (delta : BitVec 12) (i : Instr) : Option (BitVec 64) :=
  match i with
  | .snop _ => some (shortWord 0 0x00 delta)
  | .sloop _ count len => some (shortWord (0#16 ++ len ++ count) 0x01 delta)
  | .sli _ rd imm => some (shortWord (imm ++ 0#6 ++ rd) 0x1B delta)
  | .slih _ rd imm => some (shortWord (imm ++ 0#6 ++ rd) 0x1C delta)
  | .sadda _ ad as imm => some (shortWord (imm ++ 0#2 ++ as ++ ad) 0x20 delta)
  | .smova _ ad ra => some (shortWord (0#28 ++ ra ++ 0#5 ++ ad) 0x21 delta)
  | .sld _ f _ => some (shortWord (memOps f) 0x28 delta)
  | .sst _ f => some (shortWord (memOps f) 0x29 delta)
  | .xstart _ f _ => some (shortWord (xstartOps f) 0x40 delta)
  | .uupd _ f => some (shortWord (uupdOps f) 0x48 delta)
  | .usetc _ f => some (shortWord (usetcOps f) 0x49 delta)
  | .urls _ unit region sreg => some (shortWord (0#17 ++ sreg ++ region ++ unit) 0x4A delta)
  | .trkclr _ entry base => some (shortWord (0#28 ++ base ++ entry) 0x50 delta)
  | .trkrd _ rd entry word => some (shortWord (0#25 ++ word ++ entry ++ rd) 0x51 delta)
  | .sorg _ m walk entry sreg => some (shortWord (0#25 ++ sreg ++ entry ++ ofB walk ++ m) 0x52 delta)
  | i => (intOp i).map fun o => shortWord (intOps o.2) o.1 delta

/-- Bits of a short word, from `lo` on, and one bit. -/
abbrev sb (w : BitVec 64) (lo len : Nat) : BitVec len := w.extractLsb' lo len
abbrev sbit (w : BitVec 64) (i : Nat) : Bool := w.getLsbD i

def intOf (w : BitVec 64) : IntF :=
  { rd := sb w 20 6, ra := sb w 26 6, rb := sb w 32 6, rc := sb w 38 6, imm := sbit w 44, val := sb w 45 19 }
def memOf (w : BitVec 64) : MemF :=
  { r := sb w 20 6, areg := sb w 26 5, size := sb w 31 2, sgn := sbit w 33, off := sb w 34 30 }
def xstartOf (w : BitVec 64) : XstartF := { xsel := sbit w 20, areg := sb w 21 5, off := sb w 26 14, due := sb w 40 24 }
def uupdOf (w : BitVec 64) : UupdF :=
  { unit := sb w 20 5, sparse := sbit w 25, flags := sb w 26 5, group := sb w 31 8, shard := sb w 39 16, sreg := sb w 55 6 }
def usetcOf (w : BitVec 64) : UsetcF :=
  { unit := sb w 20 5, group := sb w 25 8, gcount := sb w 33 8, cmask := sb w 41 16, sreg := sb w 57 6 }

/-- The instruction that a scalar word's fields spell, reserved bits aside. -/
def fieldsS (e : SEng) (w : BitVec 64) : Option Instr :=
  let op := sb w 12 8
  if op = 0x00 then some (.snop e)
  else if op = 0x01 then some (.sloop e (sb w 20 16) (sb w 36 12))
  else if op = 0x1B then some (.sli e (sb w 20 6) (sb w 32 32))
  else if op = 0x1C then some (.slih e (sb w 20 6) (sb w 32 32))
  else if op = 0x20 then some (.sadda e (sb w 20 5) (sb w 25 5) (sb w 32 32))
  else if op = 0x21 then some (.smova e (sb w 20 5) (sb w 30 6))
  else if op = 0x28 then some (.sld e (memOf w) .none)
  else if op = 0x29 then some (.sst e (memOf w))
  else if op = 0x40 then some (.xstart e (xstartOf w) .none)
  else if op = 0x48 then some (.uupd e (uupdOf w))
  else if op = 0x49 then some (.usetc e (usetcOf w))
  else if op = 0x4A then some (.urls e (sb w 20 5) (sb w 25 16) (sb w 41 6))
  else if op = 0x50 then some (.trkclr e (sb w 20 8) (sb w 28 8))
  else if op = 0x51 then some (.trkrd e (sb w 20 6) (sb w 26 8) (sb w 34 5))
  else if op = 0x52 then some (.sorg e (sb w 20 4) (sbit w 24) (sb w 25 8) (sb w 33 6))
  else intInstr e op (intOf w)

/-- Decode a scalar word: its issue delta and its instruction (R177). -/
def decodeS (e : SEng) (w : BitVec 64) : Option (BitVec 12 × Instr) :=
  match fieldsS e w with
  | none => none
  | some i => if encodeS (sb w 0 12) i = some w then some (sb w 0 12, i) else none

end Sys2Proof.Machine
end

