-- ==== Sys2Proof/Machine/Streams.lean ====
section
/-! DEFINITION. Instruction streams: how a stream goes from word to word (R25, R178), and the loader's checks of a whole
stream, its loops unrolled (R74, R118, R119, R143, R155, R157, R166, R167, R178, R184, R257). -/
namespace Sys2Proof.Machine

/-! ## Words -/

/-- The word at a place of a stream, decoded: its issue delta and its instruction; none past the end or for a word that has
no meaning (R177, R192). -/
def StreamImg.word (s : StreamImg) (pc : Nat) : Option (Nat × Instr) :=
  match s.words[pc]? with
  | none => none
  | some w =>
    let r := if s.kind = 0 then decodeM ⟨Fin.ofNat 4 s.yard, Fin.ofNat 16 s.idx⟩ (BitVec.ofNat 128 w)
      else if s.kind = 1 then decodeV ⟨Fin.ofNat 4 s.yard, Fin.ofNat 8 s.idx⟩ (BitVec.ofNat 128 w)
      else decodeS ⟨Fin.ofNat 4 s.yard, Fin.ofNat 4 s.idx⟩ (BitVec.ofNat 64 w)
    r.map fun p => (p.1.toNat, p.2)

/-- Engine number of a stream. -/
def StreamImg.engine (s : StreamImg) : Nat := 32 * s.yard + (if s.kind = 0 then 0 else if s.kind = 1 then 16 else 24) + s.idx

/-- The value 0 of an issue delta means 4,096 sc (R25). -/
def deltaSc (d : Nat) : Nat := if d = 0 then 4096 else d

/-- Where a stream goes after the word at `pc`: back to the first word of a body with passes left, or on (R178). -/
def closeLoops (pc : Nat) : List (Nat × Nat × Nat) → Nat × List (Nat × Nat × Nat)
  | [] => (pc + 1, [])
  | (first, last, passes) :: rest =>
    if pc = last then
      if passes > 1 then (first, (first, last, passes - 1) :: rest) else closeLoops pc rest
    else (pc + 1, (first, last, passes) :: rest)

/-- The stream after its word issued at `now` (R25, R178); a loop word then opens its body. -/
def StreamImg.advance (s : StreamImg) (now : Nat) (p : StreamPos) : StreamPos :=
  let c := closeLoops p.pc p.loops
  match s.word c.1 with
  | some (delta, _) => { pc := c.1, loops := c.2, next := now + deltaSc delta, ended := false }
  | none => { pc := c.1, loops := c.2, next := now, ended := true }

/-- The stream as START leaves it: its first word issues at the start offset, whatever its delta (R25, Table 9-1). -/
def StreamImg.begin (s : StreamImg) : StreamPos := { pc := 0, loops := [], next := s.start, ended := s.words.isEmpty }

/-! ## The loader's pass over a stream -/

/-- What the pass carries: the place, when the stream may issue again after VCHOL or VTRSM (R157), when the quarter-rate unit
and the yard-store path are free (R143, R184, R257), the shape, and the base and address registers and the scalar registers as far as
immediates of the stream itself fix them. -/
structure Scan where
  pos : StreamPos
  busy : Nat := 0
  quarter : Nat := 0
  store : Nat := 0
  shape : Nat := 0
  mb : List (Option Nat) := List.replicate 8 none
  sregs : List (Option Nat) := some 0 :: List.replicate 63 none
  addrs : List (Option Nat) := List.replicate 32 none

/-- What a check of a whole stream needs of the image and of its profile. -/
structure ScanCtx where
  im : Image
  lat : Nat → Nat

/-- A byte of a DATA block at a device physical address, the last block that covers it. -/
def dataByte (blocks : List (Nat × List Nat)) (a : Nat) : Option Nat :=
  (blocks.reverse.find? fun b => b.1 ≤ a ∧ a < b.1 + b.2.length).map fun b => nth 0 b.2 (a - b.1)

/-- Loop words: nesting of at most four, bodies within the stream and within the body around them (R178). -/
def loopFits (s : StreamImg) (p : StreamPos) (len : Nat) : Bool :=
  decide (p.pc + len < s.words.length) && decide (p.loops.length < 4) &&
  (match p.loops with
    | [] => true
    | (_, last, _) :: _ => decide (p.pc + len ≤ last))

/-- Sources, view and alignment of a home operand as far as the stream fixes its address (R118). -/
def homeOk (x : Scan) (f : MmaF) : Bool :=
  match nth none x.mb f.hbase.toNat with
  | none => true
  | some b =>
    let a := (b + f.hoff.toNat) % 2 ^ 23
    if bit a 22 && (!f.srcRow || !f.srcCol) then
      let sh := shapeOf x.shape
      let rate := min (rate4 f.fmtRow.toNat) (rate4 f.fmtCol.toNat)
      let lanes := if f.srcRow then sh.cols else sh.rows
      a % 256 = 0 && f.stride.toNat % 256 = 0 && lanes % 32 = 0 && (f.steps.toNat + 1) * rate / 4 % 32 = 0 &&
        (f.steps.toNat + 1) * rate % 4 = 0
    else true

/-- A drain against its shape and view (R92, R119) and, where a DATA block gives its profile, against the formats that take
block scales (R62). -/
def drainOk (blocks : List (Nat × List Nat)) (s : StreamImg) (x : Scan) (f : MdrnF) : Bool :=
  let thin := x.shape = 4
  let view :=
    match nth none x.mb f.abase.toNat with
    | none => true
    | some b =>
      let a := (b + f.aoff.toNat) % 2 ^ 27
      !(f.dest = 1 && bit a 22) || (!thin && a % 256 = 0)
  let blk := (dataByte blocks (onchipAddr s.yard 1 s.idx (f.profile.toNat * 64 + 0x17))).getD 0
  view && !(thin && blk = 2) && (blk = 0 || scaleOk f.fmt.toNat)

/-- The bytes of DATA blocks from a device physical address on; none where a byte is in no block. -/
def dataBytes (blocks : List (Nat × List Nat)) (a n : Nat) : Option (List Nat) :=
  (addrRange a n).mapM (dataByte blocks)

/-- An INJECT descriptor whose TURN and SCALED an image sets together is refused (R108). The loader sees a descriptor where a
DATA block of the image holds its bytes and immediates of the stream fix its place (DEDUCED, log entry 87). -/
def xstartOk (blocks : List (Nat × List Nat)) (s : StreamImg) (x : Scan) (f : XstartF) : Bool :=
  match nth none x.addrs f.areg.toNat with
  | none => true
  | some a =>
    match dataBytes blocks (onchipAddr s.yard 5 s.idx ((a + 64 * f.off.toNat) % 2 ^ 64)) 192 with
    | none => true
    | some b =>
      let j := (parseDesc b).inj
      b.getD 0 0 ≠ 2 || !j.scaled || (List.range j.laps).all fun l => !bit j.edge (2 * l + 1)

/-- The scalar register an instruction writes, with its value where an immediate fixes it (R184, R185, R188). -/
def sWritten (x : Scan) (i : Instr) : Option (Nat × Option Nat) :=
  match i with
  | .sli _ rd imm => some (rd.toNat, some (wrap 64 (signed 32 imm.toNat)))
  | .slih _ rd imm => some (rd.toNat, (nth none x.sregs rd.toNat).map fun v => v % 2 ^ 32 + 2 ^ 32 * imm.toNat)
  | .sadd _ f | .ssub _ f | .smul _ f | .sand _ f | .sor _ f | .sxor _ f | .sshl _ f | .sshr _ f | .ssra _ f | .scmp _ f
  | .ssel _ f | .sfadd _ f | .sfmul _ f | .sffma _ f | .sfcvt _ f | .sfrcp _ f | .sfrsqrt _ f => some (f.rd.toNat, none)
  | .sld _ f _ => some (f.r.toNat, none)
  | .trkrd _ rd _ _ => some (rd.toNat, none)
  | _ => none

/-- The address register an instruction writes, in the same way (R185). -/
def aWritten (x : Scan) (i : Instr) : Option (Nat × Option Nat) :=
  match i with
  | .sadda _ ad as imm =>
    some (ad.toNat, (nth none x.addrs as.toNat).map fun a => wrap 64 ((a : Int) + signed 32 imm.toNat))
  | .smova _ ad ra => some (ad.toNat, nth none x.sregs ra.toNat)
  | _ => none

/-- The scalar and address registers after a word. -/
def Scan.scalars (x : Scan) (i : Instr) : Scan :=
  let put (l : List (Option Nat)) : Option (Nat × Option Nat) → List (Option Nat)
    | none => l
    | some (r, v) => setNth l r v
  { x with
    sregs := put x.sregs ((sWritten x i).filter fun w => w.1 ≠ 0)
    addrs := put x.addrs (aWritten x i) }

/-- A group's preset; UNUSED where the table has none. -/
def Image.preset (im : Image) (g : Nat) : Nat := bits (nth 0 (nth [] im.groups g) 0) 63 60

/-- Update commands against the group table and the allocation map (R166, R167). -/
def updateOk (im : Image) (i : Instr) : Bool :=
  match i with
  | .uupd _ f =>
    im.preset f.group.toNat ≠ 0 && (im.shards.any fun sh => sh.shard = f.shard.toNat && sh.owner = f.unit.toNat)
  | .usetc _ f =>
    (List.range (f.gcount.toNat + 1)).all fun k =>
      let p := im.preset (f.group.toNat + k)
      p ≠ 0 && (List.range 15).all fun j => !bit f.cmask.toNat j || (presetCoefs p).contains j
  | .urls _ unit region _ => im.regions.any fun r => r.region = region.toNat && r.owner = unit.toNat
  | _ => true

/-- Whether an instruction uses the quarter-rate unit (R143, R184). -/
def quarterRate (i : Instr) : Bool :=
  match i with
  | .vlog2 _ _ | .vrsqrt _ _ | .vtanh _ _ | .vsig _ _ | .verf _ _ | .vsmstat _ _ | .sfrcp _ _ | .sfrsqrt _ _ => true
  | _ => false

/-- Flits of a VST to the yard store (R257). -/
def storeFlits (f : VldF) : Nat := ceilDiv (fmtBytes f.fmt.toNat (tyCount f.ty.toNat)) 256

/-- The pass goes past one word, which issues at `t`. -/
def Scan.after (c : ScanCtx) (s : StreamImg) (x : Scan) (i : Instr) (t : Nat) : Scan :=
  let p := s.advance t x.pos
  let x1 := { x.scalars i with pos := p, quarter := if quarterRate i then t + 4 else x.quarter }
  let set (r : BitVec 3) (v : Option Nat) : Scan := { x1 with mb := setNth x1.mb r.toNat v }
  let loop (count : BitVec 16) (len : BitVec 12) : Scan :=
    { x1 with pos := { p with loops := (p.pc, p.pc + len.toNat, count.toNat + 1) :: p.loops } }
  match i with
  | .mloop _ count len | .vloop _ count len | .sloop _ count len => loop count len
  | .msetb _ r v => set r (some v.toNat)
  | .maddb _ r v => set r ((nth none x1.mb r.toNat).map fun b => (b + v.toNat) % 2 ^ 32)
  | .reshape _ shape => { x1 with shape := shape.toNat }
  | .vst _ f => if f.ld.space = 3 then { x1 with store := t + ceilDiv (storeFlits f.ld) 4 } else x1
  | .vchol _ f _ _ _ =>
    { x1 with busy := t + ((f.n.toNat + 1) * (c.lat clsQuarter + c.lat clsAlu) + columnTime (f.n.toNat + 1) (f.b.toNat + 1)
        + c.lat clsMem) }
  | .vtrsm _ f _ _ _ _ _ _ =>
    { x1 with busy := t + ((f.n.toNat + 1) * (2 * c.lat clsAlu) + columnTime (f.n.toNat + 1) (f.b.toNat + 1) + c.lat clsMem) }
  | _ => x1

/-- What the loader refuses at one word, with what came before it. -/
def Scan.wordOk (c : ScanCtx) (blocks : List (Nat × List Nat)) (s : StreamImg) (x : Scan) (i : Instr) : Bool :=
  let t := x.pos.next
  instrFieldsOk i && updateOk c.im i && decide (x.busy ≤ t) && (!quarterRate i || decide (x.quarter ≤ t)) &&
  (match i with
    | .mloop _ _ len | .vloop _ _ len | .sloop _ _ len => loopFits s x.pos (len.toNat + 1)
    | .mma _ f => homeOk x f
    | .mdrn _ f _ => drainOk blocks s x f
    | .xstart _ f _ => xstartOk blocks s x f
    | .vst _ f => f.ld.space ≠ 3 || decide (x.store ≤ t)
    | _ => true)

/-- The pass over a stream: true where no word is refused. -/
def Scan.run (c : ScanCtx) (blocks : List (Nat × List Nat)) (s : StreamImg) : Nat → Scan → Bool
  | 0, _ => true
  | n + 1, x =>
    if x.pos.pc ≥ s.words.length then true
    else
      match s.word x.pos.pc with
      | none => false
      | some (_, i) => x.wordOk c blocks s i && Scan.run c blocks s n (x.after c s i x.pos.next)

/-- The loader accepts a stream (check 7 of R196). Four levels of 65,536 passes bound how many words it issues (R178). -/
def streamOk (c : ScanCtx) (blocks : List (Nat × List Nat)) (s : StreamImg) : Bool :=
  Scan.run c blocks s (s.words.length * 65536 ^ 4) { pos := s.begin }

end Sys2Proof.Machine
end

