-- ==== Sys2Proof/Machine/Image.lean ====
section
/-! DEFINITION. The Zheond image (R190 to R195): its header, section table and sections as the loader reads them, and checks
1 to 3 of R196. -/
namespace Sys2Proof.Machine

/-- A section table entry (Table 9-13). -/
structure Section where
  type : Nat
  count : Nat
  off : Nat
  len : Nat
  reserved : Nat
  deriving DecidableEq, Repr

def sectionAt (b : List Nat) (i : Nat) : Section :=
  let o := 256 + 32 * i
  ⟨field b o 2, field b (o + 4) 4, field b (o + 8) 8, field b (o + 16) 8, field b (o + 2) 2 + field b (o + 24) 8⟩

def sectionsOf (b : List Nat) : List Section := (List.range (field b 0x0E 2)).map (sectionAt b)

/-- The bytes of a section. -/
def Section.bytes (s : Section) (b : List Nat) : List Nat := (b.drop s.off).take s.len

/-- The sections of a type, in table order. -/
def ofType (b : List Nat) (t : Nat) : List Section := (sectionsOf b).filter fun s => s.type = t

/-- `n` records of `size` bytes. -/
def recordsOf (s : Section) (b : List Nat) (size : Nat) : List (List Nat) :=
  (List.range s.count).map fun i => ((s.bytes b).drop (size * i)).take size

/-- The blocks of a DATA section as (address, start in the image, length), and where the last one ends (R195). -/
def dataBlocks (b : List Nat) : Nat → Nat → List (Nat × Nat × Nat) × Nat
  | 0, o => ([], o)
  | n + 1, o =>
    let len := field b (o + 8) 8
    let r := dataBlocks b n (o + 16 + (len + 15) / 16 * 16)
    ((field b o 8, o + 16, len) :: r.1, r.2)

def Section.data (s : Section) (b : List Nat) : List (Nat × Nat × Nat) × Nat := dataBlocks b s.count s.off

/-! ## Records -/

def streamOf (s : Section) (b : List Nat) : StreamImg :=
  let x := s.bytes b
  let kind := field x 1 1
  let w := if kind = 2 then 8 else 16
  { yard := field x 0 1, kind := kind, idx := field x 2 1, start := field x 8 8,
    words := (List.range s.count).map fun i => field x (16 + w * i) w }

def bufferOf (r : List Nat) : BufferRec :=
  { yard := field r 1 1, space := field r 2 1, eng := field r 3 1, id := field r 4 4, off := field r 8 8, len := field r 16 8 }
def regionRecOf (r : List Nat) : RegionRec :=
  { stashed := field r 2 1 = 1, owner := field r 3 1, region := field r 4 2, cur := field r 6 2, base := field r 8 8,
    len := field r 16 8, slotOff := field r 24 8 }
def shardOf (r : List Nat) : ShardRec :=
  { owner := field r 1 1, cfmt := field r 2 1, hasRegion := bit (field r 3 1) 0, shard := field r 4 2, region := field r 6 2,
    count := field r 8 4, rowlen := field r 12 4, row0 := field r 16 4, col0 := field r 20 4, wbase := field r 24 8,
    s1base := field r 32 8, s2base := field r 40 8 }
def sideOf (r : List Nat) : SideRec := { yard := field r 1 1, eng := field r 2 1, count := field r 3 1, base := field r 4 4 }
def walkOf (r : List Nat) : WalkRec :=
  { yard := field r 0 1, eng := field r 1 1, tid := field r 2 2, rows := field r 4 4, cols := field r 8 4,
    orient := bit (field r 12 1) 0, walk := bit (field r 12 1) 1 }

/-- A GROUP entry: the configuration word, then its sixteen coefficients (R194). -/
def groupOf (r : List Nat) : List Nat := field r 0 8 :: (List.range 16).map fun j => field r (8 + 4 * j) 4

/-- Records of a type of the ALLOC section (Table 9-15). -/
def allocOf (b : List Nat) (t : Nat) : List (List Nat) :=
  (((ofType b 2).flatMap fun s => recordsOf s b 64).filter fun r => field r 0 1 = t)

/-- The image as the part holds it once it is loaded. -/
def imageOf (b : List Nat) : Image :=
  { multi := bit (field b 0x0D 1) 0, seed := field b 0x18 8, profile := (List.range 16).map fun k => field b (0x20 + 2 * k) 2,
    epoch := field b 0x40 4, devId := field b 0x44 2, digest := (b.drop 0x50).take 32,
    streams := (ofType b 1).map fun s => streamOf s b,
    buffers := (allocOf b 1).map bufferOf, regions := (allocOf b 2).map regionRecOf, shards := (allocOf b 3).map shardOf,
    sides := (allocOf b 4).map sideOf,
    groups := (ofType b 3).flatMap fun s => (recordsOf s b 72).map groupOf,
    anchors := (ofType b 4).flatMap fun s => (recordsOf s b 16).map fun r => (field r 0 8, field r 8 4),
    walks := (ofType b 5).flatMap fun s => (recordsOf s b 16).map walkOf,
    timetables := (ofType b 7).map fun s => s.bytes b,
    trees := (ofType b 8).flatMap fun s => recordsOf s b 32,
    prefetch := (ofType b 9).flatMap fun s => recordsOf s b 32,
    data := (ofType b 6).flatMap fun s => (s.data b).1 }

/-! ## Check 1: IMAGE_HEADER -/

/-- Header fields (R190, Table 9-12); reserved fields are 0. -/
def Dev.imgHeaderOk (d : Dev) (b : List Nat) (len : Nat) : Bool :=
  let multi := bit (field b 0x0D 1) 0
  decide (256 ≤ b.length) && field b 0 4 = 0x4F45485A && field b 4 2 = 0x0100 && field b 6 2 = 0x0100 &&
  field b 8 4 = 0x54344456 && decide (field b 0x0C 1 < 4) && decide (field b 0x0D 1 < 2) && field b 0x46 2 = 0 &&
  field b 0xB0 80 = 0 && (multi || (field b 0x40 4 = 0 && field b 0x44 2 = 0xFFFF)) && field b 0x10 8 = len &&
  b.length = len && bit (field b 0x0C 1) (if d.cfg.steppingB0 then 1 else 0) &&
  decide (1 ≤ field b 0x0E 2 ∧ field b 0x0E 2 ≤ 4096 ∧ 256 + 32 * field b 0x0E 2 ≤ len)

/-- The length that Table 9-14 gives for a section's COUNT; a STREAM section's kind decides its word length. -/
def sectionLength (s : Section) (b : List Nat) : Nat :=
  if s.type = 1 then 16 + (if field b (s.off + 1) 1 = 2 then 8 else 16) * s.count
  else if s.type = 2 then 64 * s.count
  else if s.type = 3 then 72 * s.count
  else if s.type = 4 ∨ s.type = 5 then 16 * s.count
  else if s.type = 6 then (s.data b).2 - s.off
  else if s.type = 7 then 16 + 8 * s.count
  else 32 * s.count

/-- A section's place and length (R191, R195, check 1 of R196). -/
def Section.placed (s : Section) (b : List Nat) : Bool :=
  decide (1 ≤ s.type ∧ s.type ≤ 9) && s.reserved = 0 && s.off % 16 = 0 && decide (s.off + s.len ≤ b.length) &&
  (s.len = 0 || decide (256 + 32 * field b 0x0E 2 ≤ s.off)) && s.len = sectionLength s b &&
  (s.type ≠ 6 || (s.data b).1.all fun k => decide (k.2.1 + k.2.2 ≤ s.off + s.len)) && (s.type ≠ 3 || s.count = 256)

/-- Two sections share a byte. -/
def overlaps (s t : Section) : Bool := decide (s.len ≠ 0 ∧ t.len ≠ 0 ∧ s.off < t.off + t.len ∧ t.off < s.off + s.len)

def noOverlap : List Section → Bool
  | [] => true
  | s :: t => (t.all fun x => !overlaps s x) && noOverlap t

/-- No two elements of a list are equal. -/
def allDistinct : List Nat → Bool
  | [] => true
  | a :: t => !t.contains a && allDistinct t

/-- A STREAM section's own header (R192). -/
def streamHeaderOk (s : Section) (b : List Nat) : Bool :=
  let x := s.bytes b
  let kind := field x 1 1
  decide (field x 0 1 < 4 ∧ kind < 3 ∧ field x 2 1 < logicalCount kind) && field x 3 1 = 0 && field x 4 4 = s.count &&
  decide (field x 8 8 < 2 ^ 48)

/-- How often each section may appear (Table 9-14). -/
def countsOk (b : List Nat) : Bool :=
  let n (t : Nat) : Nat := (ofType b t).length
  n 1 = 112 && n 2 = 1 && n 3 = 1 && decide (n 4 ≤ 1 ∧ n 5 ≤ 1 ∧ n 7 ≤ 4 ∧ n 8 ≤ 1 ∧ n 9 ≤ 1) &&
  allDistinct ((ofType b 7).map fun s => field b s.off 1)

/-- Check 1 of R196. -/
def Dev.check1 (d : Dev) (b : List Nat) (len : Nat) : Bool :=
  d.imgHeaderOk b len && (sectionsOf b).all (fun s => s.placed b) && noOverlap (sectionsOf b) && countsOk b &&
  ((ofType b 1).all fun s => streamHeaderOk s b) && allDistinct ((ofType b 1).map fun s => (streamOf s b).engine)

/-! ## Checks 2, 3 and 5 -/

def digestOk (b : List Nat) : Bool := Config.sm3 (b.drop 256) = (b.drop 0x50).take 32

/-- Check 2 of R196: the digest, and the signature with the image key of the same KEY_ID (R349). -/
def Dev.check2 (d : Dev) (b : List Nat) : Bool :=
  match d.flash.active.images.find? fun k => k.id = field b 0x48 8 with
  | some k => digestOk b && Config.sm2Verifies k.key (b.take 0x70) ((b.drop 0x70).take 64)
  | none => false

/-- Native latency of a class on this stepping (Table 2-5). -/
def Dev.native (d : Dev) (k : Nat) : Nat := nth 0 (if d.cfg.steppingB0 then nativeB0 else nativeA0) k

/-- Check 3 of R196: the latency profile (R41). -/
def Dev.check3 (d : Dev) (im : Image) : Bool :=
  (List.range 16).all fun k =>
    let v := nth 0 im.profile k
    if k = 15 then v = 0
    else decide (d.native k ≤ v) && (decide (k ≥ 13) || decide (v ≤ d.native k + 255))

/-- Check 5 of R196: the membership (R279). -/
def Dev.check5 (d : Dev) (im : Image) : Bool :=
  !im.multi || (im.epoch = d.getF fFAB_ID_EPOCH [] && im.devId = d.getF fFAB_ID_DEV_ID [])

end Sys2Proof.Machine
end

