-- ==== Sys2Proof/Machine/ImageChecks.lean ====
section
/-! DEFINITION. Checks 4, 6 and 7 of R196: the allocation map (R21, R120, R160, R193, R195, R208, R210, R219, R238), the
serviceable engines and domains (R14, R265, R301), and the field checks (R166, R194, R238, R258, R261, R262, R282). -/
namespace Sys2Proof.Machine

/-! ## Check 4: ALLOCATION -/

/-- Bytes of a record from `lo` on are 0. -/
def zeroFrom (r : List Nat) (lo : Nat) : Bool := (r.drop lo).all (· = 0)

/-- Reserved bytes and bits of an ALLOC record (R193, Table 9-15). -/
def allocReservedOk (r : List Nat) : Bool :=
  let t := field r 0 1
  if t = 1 then zeroFrom r 24
  else if t = 2 then field r 1 1 = 0 && zeroFrom r 32
  else if t = 3 then decide (field r 3 1 < 2) && zeroFrom r 48
  else if t = 4 then zeroFrom r 8
  else false

/-- The one stack that holds a range of HBM4, installed, be it in self-refresh or not (R215, R217, R301). -/
def Dev.stackOf (d : Dev) (a len : Nat) : Option Nat :=
  if len = 0 ∨ a + len > 0x9000000000 ∨ a / 2 ^ 30 ≠ (a + len - 1) / 2 ^ 30 then none
  else if d.stackIn (a / 2 ^ 30 % 12) then some (a / 2 ^ 30 % 12) else none

/-- Yard that holds every byte of a tier range, if one does. -/
def tierYard (a len : Nat) : Option Nat :=
  match tierUnits a len with
  | [] => none
  | u :: us => if us.all fun v => v / 5 = u / 5 then some (u / 5) else none

/-- A BUFFER record (R208, R219). -/
def Dev.bufferOk (d : Dev) (b : BufferRec) : Bool :=
  if b.space ≤ 5 then
    decide (b.yard < 4) && (decide (b.eng < spaceCount b.space) || (b.space = 0 && b.eng = 0xFF)) &&
    b.off % spaceAlign b.space = 0 && b.len % spaceAlign b.space = 0 && b.len ≠ 0 &&
    decide (b.off + b.len ≤ spaceSize b.space)
  else
    decide (b.space ≤ 7) && b.off % 256 = 0 && b.len % 256 = 0 && b.len ≠ 0 && d.installed b.off b.len &&
    (match locate b.off with
      | .hbm _ _ => b.space = 6
      | .ddr _ _ => b.space = 7
      | .onchip _ _ _ _ | .window _ _ | .control _ | .nowhere => false) &&
    (b.yard = 0xFF || tierYard b.off b.len = some b.yard) && b.eng = 0xFF

/-- A REGION record, by itself (R193, R219). -/
def Dev.regionOk (d : Dev) (r : List Nat) : Bool :=
  let g := regionRecOf r
  decide (field r 2 1 ≤ 1 ∧ g.owner ≤ 19) && g.base % 256 = 0 && g.len % 256 = 0 && g.len ≠ 0 &&
  (match d.stackOf g.base g.len with
    | none => false
    | some st =>
      st / 3 = g.owner / 5 &&
      (if g.stashed then
        d.stackOf (g.base + g.slotOff) g.len = some st && decide (g.len ≤ g.slotOff)
      else g.slotOff = 0))

/-- The groups that enable a state, and the bytes of its widest format (R160). -/
def stateWidth (im : Image) (second : Bool) : Nat :=
  let on := im.groups.filter fun g => let c := groupCfg (nth 0 g 0); if second then c.s2 else c.s1
  if on.isEmpty then 0 else if on.any fun g => !(groupCfg (nth 0 g 0)).bf then 4 else 2

/-- The ranges a shard's master weights and states take (R160). -/
def shardRanges (im : Image) (sh : ShardRec) : List (Nat × Nat) :=
  [(sh.wbase, 4 * sh.count), (sh.s1base, stateWidth im false * sh.count), (sh.s2base, stateWidth im true * sh.count)].filter
    fun r => r.2 ≠ 0

/-- A SHARD record (R160). -/
def Dev.shardOk (d : Dev) (im : Image) (sh : ShardRec) : Bool :=
  decide (1 ≤ sh.count ∧ 1 ≤ sh.rowlen ∧ sh.rowlen ≤ 65536) && sh.count % max 1 sh.rowlen = 0 &&
  ((shardRanges im sh).all fun r => r.1 % 256 = 0 && d.inController sh.owner r.1 r.2) &&
  (!sh.hasRegion ||
    match im.regions.find? fun g => g.region = sh.region with
    | none => false
    | some g =>
      g.owner = sh.owner && decide (2 * sh.count ≤ g.len) && (d.stackOf g.base g.len).isSome &&
      ((im.shards.filter fun x => x.hasRegion && x.region = sh.region).length = 1))

/-- No byte belongs to two shards (R21). -/
def shardsApart (im : Image) : List ShardRec → Bool
  | [] => true
  | s :: t =>
    (t.all fun x => (shardRanges im s).all fun a => (shardRanges im x).all fun b =>
      !decide (a.1 < b.1 + b.2 ∧ b.1 < a.1 + a.2)) && shardsApart im t

/-- A range lies wholly within one BUFFER record of its space, yard and engine (R210). -/
def inBuffer (im : Image) (y space e off len : Nat) : Bool :=
  im.buffers.any fun b => b.yard = y && b.space = space && (space = 0 || b.eng = e) &&
    decide (b.off ≤ off ∧ off + len ≤ b.off + b.len)

/-- A side table (R120, R210). -/
def sideOk (im : Image) (s : SideRec) : Bool :=
  decide (s.yard < 4 ∧ s.eng < 16) && decide (s.base + 16 * s.count ≤ spaceSize 1) &&
  (s.count = 0 || inBuffer im s.yard 1 s.eng s.base (16 * s.count))

/-- A DATA block against the allocation map and the populated memory (R195, R210); windows and control space are check 7's. -/
def Dev.dataPlaced (d : Dev) (im : Image) (k : Nat × Nat × Nat) : Bool :=
  if k.2.2 = 0 then true
  else
    match locate k.1 with
    | .onchip y space e off =>
      d.populated k.1 k.2.2 && decide (e < spaceCount space) && inBuffer im y space e (plainOff space off) k.2.2
    | .hbm _ _ | .ddr _ _ => d.installed k.1 k.2.2
    | .window _ _ | .control _ => true
    | .nowhere => false

/-- Check 4 of R196, but for the streams' buffers. -/
def Dev.check4 (d : Dev) (b : List Nat) (im : Image) : Bool :=
  ((ofType b 2).all fun s => (recordsOf s b 64).all allocReservedOk) &&
  im.buffers.all d.bufferOk && allDistinct (im.buffers.map fun x => x.id) &&
  (allocOf b 2).all d.regionOk && allDistinct (im.regions.map fun x => x.region) &&
  im.shards.all (d.shardOk im) && allDistinct (im.shards.map fun x => x.shard) && shardsApart im im.shards &&
  im.sides.all (sideOk im) && im.data.all (d.dataPlaced im)

/-- A stream's buffer holds its slots, else BUFFER_TOO_SMALL (R238). -/
def prefetchFits (im : Image) (r : List Nat) : Bool :=
  match im.buffers.find? fun b => b.id = field r 4 4 with
  | some b => decide ((field r 2 1 + 1) * field r 12 4 ≤ b.len)
  | none => true

/-! ## Check 6: FENCED -/

/-- Domains an image needs: the quadrants, yard stores, HBM PHY groups and bridges (R301). -/
def Dev.domainsOn (d : Dev) : Bool :=
  [36, 37, 38, 39].all d.domainOn && [0, 1, 2, 3].all fun y => [0, 1, 2, 3, 4, 5].all fun k => d.domainOn (8 * y + k)

/-- A reservation or TREE record names a failed router, or the failed routers of a yard let no image run (R265). -/
def Dev.routersBlock (d : Dev) (im : Image) : Bool :=
  ([0, 1, 2, 3].any fun y => d.routersBad y) ||
  (im.timetables.any fun s => (ttEntries s).any fun r => (d.failedRouters (nth 0 s 0)).contains r.router) ||
  (im.trees.any fun r => nth 0 r 0 ≠ 3 && (d.failedRouters (nth 0 r 1)).contains (nth 0 r 2))

/-- R14 and R265, which START repeats. -/
def Dev.canServe (d : Dev) (im : Image) : Bool := d.enoughEngines && !d.routersBlock im

/-! ## Check 7: BAD_PARAM -/

/-- Strictly increasing in both the sc and the mark (R194). -/
def anchorsOk : List (Nat × Nat) → Bool
  | [] => true
  | [_] => true
  | a :: b :: t => decide (a.1 < b.1 ∧ a.2 < b.2) && anchorsOk (b :: t)

/-- A GROUP entry (R165, R166, R194, Table 8-13). -/
def groupOk (g : List Nat) : Bool :=
  let w := nth 0 g 0
  let p := bits w 63 60
  bits w 48 0 = 0 && !(9 ≤ p && p ≤ 14) && bits w 54 53 ≠ 3 &&
  (List.range 16).all fun j => (presetCoefs p).contains j || nth 0 g (j + 1) = 0

/-- TENSOR walks (R194). -/
def walksOk (im : Image) : Bool :=
  im.walks.all (fun w => decide (w.yard < 4 ∧ w.eng < 16)) &&
  (List.range 64).all fun e =>
    let mine := im.walks.filter fun w => 16 * w.yard + w.eng = e
    decide (mine.length ≤ 256) && allDistinct (mine.map fun w => w.tid)

/-- A PREFETCH record (R238). -/
def prefetchOk (im : Image) (r : List Nat) : Bool :=
  let p := field r 2 1
  let src := field r 3 1
  let tile := field r 8 4
  let slot := field r 12 4
  let dist := p * field r 16 4
  decide (field r 0 1 < 4 ∧ field r 1 1 < 8 ∧ src < 3 ∧ 1 ≤ p ∧ p ≤ 8 ∧ tile ≠ 0 ∧ tile ≤ 1048576 ∧ tile ≤ slot) &&
  slot % 64 = 0 && decide ((if src = 0 then 400 else if src = 1 then 720 else 32) ≤ dist ∧ dist ≤ 16777215) &&
  im.buffers.any fun b => b.id = field r 4 4 && decide (b.space ≤ 5) && b.yard = field r 0 1

/-! ### Timetables -/

/-- Latencies of the profile that the timetable is built for: hop, bridge, adder (R258). -/
structure TtCtx where
  h : Nat
  br : Nat
  a : Nat
  im : Image

def sectionPeriod (s : List Nat) : Nat := 2 * field s 2 2

/-- Phases an entry reserves (R258). -/
def Resv.phases (r : Resv) : List Nat := (List.range r.reps).map fun i => r.phase + i * r.stride

/-- An output or input port exists at a router (R251, R261): links, local ports, the adder's. -/
def outPort (n p : Nat) : Bool := (neighbour n p).isSome || (endpointAt n p).isSome || p = 8 || p = 9
def inPort (n p : Nat) : Bool := (neighbour n p).isSome || (endpointAt n p).isSome || p = 8

/-- The fields of one entry (R258). -/
def resvFields (period : Nat) (w : Nat) : Bool :=
  let r := resvOf w
  decide (r.router < 48) && outPort r.router r.out && inPort r.router r.inp && decide (1 ≤ r.stride) && bits w 63 61 = 0 &&
  (r.out = 8 || r.out = 9 || r.inp = 8 || r.node = 0) && r.phases.all fun p => decide (p < period)

/-- Some entry of a section reserves an output of a router in a phase. -/
def reserves (s : List Nat) (n out q : Nat) : Bool :=
  (ttEntries s).any fun r => r.router = n && r.out = out && r.at (sectionPeriod s) q

/-- No two entries reserve one output of a router in one phase (R258). -/
def noClash : List Resv → Bool
  | [] => true
  | r :: t => (t.all fun x => !(x.router = r.router && x.out = r.out) || !(r.phases.any x.phases.contains)) && noClash t

def sectionOf (im : Image) (y : Nat) : Option (List Nat) := im.timetables.find? fun s => field s 0 1 = y

/-- What feeds a reservation's input: the upstream router's output, or the neighbour yard's bridge lane (R258). -/
def fed (c : TtCtx) (s : List Nat) (r : Resv) (p : Nat) : Bool :=
  let n := sectionPeriod s
  let y := field s 0 1
  let back (k : Nat) : Nat := (p + k * n - k) % n
  match neighbour r.router r.inp with
  | some m => reserves s m (oppositePort r.inp) (back (2 * c.h))
  | none =>
    match endpointAt r.router r.inp with
    | some (e, _) =>
      if e < 64 then true
      else
        match sectionOf c.im (if e < 72 then bxYard y else byYard y), placeOf e with
        | some s', some (m, q) => reserves s' m q (back (2 * c.h + 2 * c.br))
        | _, _ => false
    | none => true

/-- Every link output has an unreserved phase in every 8 consecutive phases, counted cyclically (R258). -/
def linksBreathe (s : List Nat) : Bool :=
  let n := sectionPeriod s
  (List.range 48).all fun r => (List.range 4).all fun o =>
    (neighbour r o).isNone || (List.range n).all fun q => (List.range 8).any fun k => !reserves s r o ((q + k) % n)

/-- Phases in which reservations of a router's output feed a node, ascending. -/
def nodePhases (s : List Nat) (n out node : Nat) : List Nat :=
  let es := (ttEntries s).filter fun r => r.router = n && r.out = out && r.node = node
  (List.range (sectionPeriod s)).filter fun q => es.any fun r => r.phases.contains q

/-- Phases in which reservations take a node's output (input 8). -/
def addPhases (s : List Nat) (n node : Nat) : List Nat :=
  let es := (ttEntries s).filter fun r => r.router = n && r.inp = 8 && r.node = node
  (List.range (sectionPeriod s)).filter fun q => es.any fun r => r.phases.contains q

/-- Nodes of a section's routers, as (router, NODE). -/
def ttNodes (s : List Nat) : List (Nat × Nat) :=
  (((ttEntries s).filter fun r => r.out = 8 || r.out = 9 || r.inp = 8).map fun r => (r.router, r.node)).foldl
    (fun l k => if l.contains k then l else l ++ [k]) []

/-- When each pair of a node is complete: the later of the k-th left and right phases (R261). -/
def pairPhases (s : List Nat) (n node : Nat) : List Nat :=
  List.zipWith max (nodePhases s n 8 node) (nodePhases s n 9 node)

/-- The TREE record of a node, on-die or fabric. -/
def nodeRecords (im : Image) (y n node : Nat) : List (List Nat) :=
  im.trees.filter fun r => (nth 0 r 0 = 1 || nth 0 r 0 = 2) && nth 0 r 1 = y && nth 0 r 2 = n && nth 0 r 3 = node

/-- An on-die node's reservations agree (R261): its ADD phases lie 2a phases after its pairs, 2h more when they leave. -/
def nodeTimed (c : TtCtx) (s : List Nat) (k : Nat × Nat) : Bool :=
  let n := sectionPeriod s
  let want := (pairPhases s k.1 k.2).map fun p => (p + 2 * c.a + 2 * c.h) % n
  let fabric := (nodeRecords c.im (field s 0 1) k.1 k.2).any fun r => nth 0 r 0 = 2
  fabric || ((nodePhases s k.1 8 k.2).length = (nodePhases s k.1 9 k.2).length &&
    ((List.range n).all fun q => decide (want.contains q ↔ (addPhases s k.1 k.2).contains q)) &&
    want.length = (addPhases s k.1 k.2).length)

/-- Phases in which a node occupies its router's adder: one for FP32, two for BF16 (R261). -/
def busyPhases (c : TtCtx) (s : List Nat) (k : Nat × Nat) : List Nat :=
  let n := sectionPeriod s
  let bf := (nodeRecords c.im (field s 0 1) k.1 k.2).any fun r => nth 0 r 4 = 1
  (pairPhases s k.1 k.2).flatMap fun p => if bf then [p % n, (p + 1) % n] else [p % n]

/-- No adder is needed twice in a phase (R261). -/
def addersFree (c : TtCtx) (s : List Nat) : Bool :=
  (List.range 48).all fun n =>
    allDistinct (((ttNodes s).filter fun k => k.1 = n).flatMap (busyPhases c s))

/-- A TIMETABLE section (R258, R261, R262). -/
def timetableOk (c : TtCtx) (s : List Nat) : Bool :=
  let n := sectionPeriod s
  let count := field s 4 4
  decide (field s 0 1 < 4 ∧ field s 1 1 < 2 ∧ 2 ≤ n ∧ n ≤ 8192) && s.length = 16 + 8 * count && field s 8 8 = 0 &&
  ((List.range count).all fun i => resvFields n (field s (16 + 8 * i) 8)) && noClash (ttEntries s) &&
  ((ttEntries s).all fun r => r.phases.all fun p => fed c s r p) && linksBreathe s &&
  ((ttNodes s).all fun k => nodeTimed c s k && (nodeRecords c.im (field s 0 1) k.1 k.2).length = 1) && addersFree c s

/-! ### Trees -/

/-- An on-die node record (R262). -/
def treeOk (r : List Nat) : Bool :=
  decide (field r 1 1 < 4 ∧ field r 2 1 < 48 ∧ field r 4 1 ≤ 1 ∧ field r 5 1 ≤ 2) &&
  (field r 5 1 ≠ 1 || (field r 16 4 % 256 = 0 && field r 16 4 ≠ 0))

/-- A fabric node's first record (R282). -/
def fabricNodeOk (r : List Nat) : Bool :=
  let nin := field r 6 1
  decide (field r 1 1 < 4 ∧ field r 2 1 < 48 ∧ field r 4 1 ≤ 1 ∧ field r 5 1 ≤ 2 ∧ nin ≤ 8) &&
  (field r 5 1 ≠ 1 || (field r 12 4 % 256 = 0 && field r 12 4 ≠ 0)) &&
  decide (((List.range nin).filter fun i => bit (field r (16 + 2 * i) 2) 15).length ≤ 1)

/-- TREE records in order: a fabric node is a record of type 0x02 followed by one of type 0x03 (R262, R282). -/
def treesOk (multi : Bool) : List (List Nat) → Bool
  | [] => true
  | [r] => field r 0 1 = 1 && treeOk r
  | r :: c :: t =>
    if field r 0 1 = 1 then treeOk r && treesOk multi (c :: t)
    else field r 0 1 = 2 && multi && fabricNodeOk r && field c 0 1 = 3 && decide (field c 1 1 ≤ 8) && treesOk multi t

/-- No node has two records, and no two fabric nodes share an FNODE (R262, R282). -/
def nodesDistinct (im : Image) : Bool :=
  let nodes := im.trees.filter fun r => nth 0 r 0 = 1 || nth 0 r 0 = 2
  allDistinct (nodes.map fun r => 65536 * nth 0 r 1 + 256 * nth 0 r 2 + nth 0 r 3) &&
  allDistinct ((im.trees.filter fun r => nth 0 r 0 = 2).map fun r => field r 8 2)

/-! ### DATA blocks and the whole check -/

/-- A block that reaches a host window or control space (R195). -/
def reachesOutside (k : Nat × Nat × Nat) : Bool :=
  match locate k.1 with
  | .window _ _ | .control _ => true
  | .onchip _ _ _ _ | .hbm _ _ | .ddr _ _ | .nowhere => false

/-- DATA blocks with their bytes, tile memory at its plain addresses (R207, R210). -/
def blocksOf (b : List Nat) (im : Image) : List (Nat × List Nat) :=
  im.data.map fun k =>
    let a := match locate k.1 with
      | .onchip y space e off => onchipAddr y space e (plainOff space off)
      | .hbm _ _ | .ddr _ _ | .window _ _ | .control _ | .nowhere => k.1
    (a, (b.drop k.2.1).take k.2.2)

/-- Sections whose reserved fields R194 refuses. -/
def sectionFieldsOk (b : List Nat) : Bool :=
  ((ofType b 4).all fun s => (recordsOf s b 16).all fun r => field r 12 4 = 0) &&
  ((ofType b 5).all fun s => (recordsOf s b 16).all fun r => decide (field r 12 1 < 4) && field r 13 3 = 0)

/-- Check 7 of R196. `own` is where the image itself lies in memory, for LOAD_IMAGE (R327). -/
def check7 (b : List Nat) (im : Image) (own : Option (Nat × Nat)) : Bool :=
  let lat (k : Nat) : Nat := nth 0 im.profile k
  let tc : TtCtx := ⟨lat 11, lat 10, lat 12, im⟩
  let blocks := blocksOf b im
  sectionFieldsOk b && (im.streams.all fun s => streamOk ⟨im, lat⟩ blocks s) &&
  im.groups.all groupOk && anchorsOk im.anchors && walksOk im &&
  (im.shards.all fun sh => sh.cfmt = 1 || sh.cfmt = 2) &&
  decide (im.prefetch.length ≤ 4096) && im.prefetch.all (prefetchOk im) &&
  (im.timetables.all fun s => timetableOk tc s && sectionPeriod s = sectionPeriod (nth [] im.timetables 0)) &&
  treesOk im.multi im.trees && nodesDistinct im && !(im.data.any reachesOutside) &&
  (match own with
    | some (a, len) => im.data.all fun k => !decide (k.1 < a + len ∧ a < k.1 + k.2.2)
    | none => true)

/-- The checks of R196, in order: the first that fails gives the status. -/
def Dev.checkImage (d : Dev) (b : List Nat) (len : Nat) (own : Option (Nat × Nat)) : Status :=
  if !d.check1 b len then .imageHeader
  else if !d.check2 b then .imageSignature
  else
    let im := imageOf b
    if !d.check3 im then .latencyProfile
    else if !d.check4 b im then .allocation
    else if !(im.prefetch.all (prefetchFits im)) then .bufferTooSmall
    else if !d.check5 im then .membershipEpoch
    else if !d.canServe im || !d.domainsOn then .fenced
    else if !check7 b im own then .badParam
    else .ok

end Sys2Proof.Machine
end

