-- ==== Sys2Proof/Machine/Load.lean ====
section
/-! DEFINITION. LOAD_IMAGE and VERIFY_IMAGE (R326, R327): the checking pass, and the writing pass with the tables it loads. -/
namespace Sys2Proof.Machine

/-! ## Tables -/

/-- Every unit's group table from the image's (R161): LOAD_IMAGE and START write it. -/
def Dev.writeGroups (d : Dev) (im : Image) : Dev :=
  (List.range 20).foldl (fun d u => (List.range 256).foldl (fun d g =>
    let e := nth [] im.groups g
    let w := nth 0 e 0
    let d1 := d.setWord .rUPD_GCFG [u, g] (BitVec.ofNat 64 (presetWord (bits w 63 60) w))
    (List.range 8).foldl (fun d j => d.setWord .rUPD_COEF [u, g, j]
      (BitVec.ofNat 64 (nth 0 e (2 * j + 1) + nth 0 e (2 * j + 2) * 2 ^ 32))) d1) d) d

/-- The pads: declared − native in each padded class's field (R41). -/
def Dev.writePads (d : Dev) (im : Image) : Dev :=
  let pad (k : Nat) : Nat := if k < 13 then nth 0 im.profile k - d.native k else 0
  (d.setWord .rSCH_PAD [0] (BitVec.ofNat 64 (pack8 ((List.range 8).map pad)))).setWord .rSCH_PAD [1]
    (BitVec.ofNat 64 (pack8 ((List.range 8).map fun k => pad (k + 8))))

/-- Tags of every region: CUR from the allocation map in slot 0, nothing stashed or pending (R134). -/
def initialTags (im : Image) : List (Nat × TagState) :=
  im.regions.foldl (fun t r => Tab.put {} t r.region { cur := r.cur }) []

/-- Mark the stalls of a BUFFER record (R209). -/
def Dev.markStalls (d : Dev) (b : BufferRec) : Dev :=
  if b.space > 5 then d
  else
    let first := b.off / 4096
    (List.range ((b.off + b.len - 1) / 4096 + 1 - first)).foldl (fun d k =>
      let i := stallBase b.space (if b.space = 0 then 0 else b.eng) + first + k
      d.setWord .rOCM_STALL [b.yard, i / 64]
        (BitVec.ofNat 64 (putBits (d.word .rOCM_STALL [b.yard, i / 64]).toNat (i % 64) (i % 64) 1))) d

/-- Stalls of the whole image, the marks of the last one gone (R209). -/
def Dev.writeStalls (d : Dev) (im : Image) : Dev :=
  let clear (d : Dev) (y : Nat) : Dev :=
    let a := regOffset .rOCM_STALL [y, 0]
    { d with regs := Tab.clear d.regs a (a + 8 * 944) }
  im.buffers.foldl Dev.markStalls ([0, 1, 2, 3].foldl clear d)

/-- ENG_MSIDE of every engine (R120). -/
def Dev.writeSides (d : Dev) (im : Image) : Dev :=
  let none_ := (List.range 64).foldl (fun d e => d.setWord .rENG_MSIDE [e / 16, e % 16] 0) d
  im.sides.foldl (fun d s => (d.setF fENG_MSIDE_COUNT [s.yard, s.eng] s.count).setF fENG_MSIDE_BASE [s.yard, s.eng] s.base) none_

/-- NOC_CFG of every yard (R258, R266), and the routes of diagonal traffic that DIAG names (R254). -/
def Dev.writeNoc (d : Dev) (im : Image) : Dev :=
  [0, 1, 2, 3].foldl (fun d y =>
    match sectionOf im y with
    | some s => ((d.setF fNOC_CFG_PERIOD [y] (field s 2 2)).setF fNOC_CFG_DIAG [y] (field s 1 1)).rewriteRoutes y
    | none => ((d.setF fNOC_CFG_PERIOD [y] 0).setF fNOC_CFG_DIAG [y] 0).rewriteRoutes y) d

/-- A command writes a block of memory. One for a DDR5 domain that is off meets a memory-bounds fault (R229, R301), whose DETAIL R353
does not give for commands: it is a free value (log entry 89). -/
def Dev.writeBlock (d : Dev) (a : Nat) (bs : List Nat) : Dev :=
  Dev.store { d with nonce := d.nonce + 1 } { code := 9, detail := Config.freeWord d.nonce % 256 } a bs

/-- The DATA blocks, at the positions of the assignment just made (R195). -/
def Dev.writeData (d : Dev) (b : List Nat) (im : Image) : Dev :=
  im.data.foldl (fun d k => d.writeBlock k.1 ((b.drop k.2.1).take k.2.2)) d

/-- Every table the earlier chapters name (R327). -/
def Dev.writeTables (d : Dev) (im : Image) : Dev :=
  let d1 := ((((d.writePads im).writeGroups im).writeStalls im).writeSides im).writeNoc im
  { d1 with tags := initialTags im, nodes := [],
            sched := { d1.sched with image := some im, streams := [] } }

/-! ## The two passes -/

/-- Start a long command. -/
def Dev.begin (d : Dev) (o : Owed) (w : LongWork) : Dev := { d with long := some ⟨o, w⟩ }

/-- LOAD_IMAGE: the checking pass. A failure leaves the state and the loaded image unchanged (R196, R327). -/
def execLoadImage (h : Hdr) (src length : Word) (r : HostRead) (s : State) : Host.Outcome State Fault Refusal :=
  s.upd fun _ d => d.command 0x10 h fun o d =>
    match srcField src with
    | none => d.complete o .badParam 0
    | some a =>
      let len := length.toNat
      if d.srcSpace h.src a len false true = .bad then d.complete o .badParam 0
      else
        match d.readSource h.src a len r with
        | (none, d) => d.complete o .transferFault 0
        | (some b, d) =>
          let st := d.checkImage b len (some (a, len))
          if st = .ok then d.assign.begin o (.load a len ((b.drop 0x50).take 32)) else d.complete o st 0

/-- VERIFY_IMAGE: the checks of R196 against the current state; nothing changes (R326). -/
def execVerifyImage (h : Hdr) (src length : Word) (r : HostRead) (s : State) : Host.Outcome State Fault Refusal :=
  s.upd fun _ d => d.command 0x11 h fun o d =>
    match srcField src with
    | none => d.complete o .badParam 0
    | some a =>
      let len := length.toNat
      if d.srcSpace h.src a len false true = .bad then d.complete o .badParam 0
      else
        match d.readSource h.src a len r with
        | (none, d) => d.begin o (.verify .transferFault)
        | (some b, d) => d.begin o (.verify (d.checkImage b len none))

/-- A failure of the writing pass: READY with no image, memory as the pass has left it (R327). -/
def Dev.failLoad (d : Dev) (o : Owed) (st : Status) : Dev :=
  ({ d with sched := { d.sched with image := none, streams := [] } }.enter .ready).complete o st 0

/-- The end of the writing pass: the image is read again and DIGEST verified over the bytes read; then the DATA blocks
and the tables (R199, R327), the assignment having been made at its start (R102). On a mismatch the part may already have written any of the image's blocks. -/
def Dev.finishLoad (d : Dev) (o : Owed) (src len : Nat) (digest : List Nat) (r : HostRead) : Dev :=
  match d.readSource o.hdr.src src len r with
  | (none, d) => d.failLoad o .transferFault
  | (some b, d) =>
    let im := imageOf b
    if Config.sm3 (b.drop 256) = digest ∧ (b.drop 0x50).take 32 = digest then
      (((d.writeData b im).writeTables im).enter .loaded).complete o .ok 0
    else
      let d1 := { d with nonce := d.nonce + 1 }
      (if Config.freeBool d.nonce then d1.writeData b im else d1).failLoad o .imageSignature

end Sys2Proof.Machine
end

