-- ==== Sys2Proof/Machine/LungeRing.lean ====
section
/-! DEFINITION. The lunge rings (05): slots and removal (R99, R100), injection and the generation check (R110, R111), delivery
through the shift lanes (R103 to R109), deliveries to fenced positions (R112). -/
namespace Sys2Proof.Machine

/-! ## Injection -/

/-- The open descriptor whose next flit leaves a stop now (R106). -/
def Dev.injectionDue (d : Dev) (y : Nat) (ccw : Bool) (stop : Nat) : Option InjBuf :=
  d.inject.find? fun b =>
    !d.isStopped (injUnit y ccw stop) && b.yard = y && b.desc.inj.ccw == ccw && b.desc.inj.stop = stop && b.next < b.desc.inj.flits &&
      b.desc.inj.first + b.next * b.desc.inj.interval ≤ d.sched.sc

/-- Bytes of a flit: those in the buffer where they were read from the slot that holds the version, else those in memory (R111). -/
def Dev.flitBytes (d : Dev) (b : InjBuf) (slot : Nat) : List Nat × Dev :=
  let n := b.desc.srcLen
  let mine := b.bytes.filter fun p => p.1 = b.next && p.2.1 = slot
  let held (i : Nat) : Option Nat := mine.findSome? fun p => if p.2.2.1 ≤ i then p.2.2.2[i - p.2.2.1]? else none
  let got := (List.range n).map held
  if got.all Option.isSome then (got.map fun o => o.getD 0, d)
  else
    let (bs, d1) := d.reads (b.desc.srcOf b.next + d.slotOffset b.desc.inj.region slot) n
    ((List.range n).map fun i => (nth none got i).getD (nth 0 bs i), d1)

/-- A flit leaves its slot; copies of it go on through the shift lanes (R103). -/
def RingFlit.leave (f : RingFlit) (sc : Nat) : RingFlit := { f with out := some sc }
def Dev.tidyRing (d : Dev) : Dev := { d with ring := d.ring.filter fun f => f.out.isNone || f.lingers }

/-- A flit takes its slot; on a collision the slot carries one of the two payloads, which is not defined (R100). -/
def Dev.putFlit (d : Dev) (f : RingFlit) : Dev :=
  let clash (g : RingFlit) : Bool := g.yard = f.yard && g.ccw == f.ccw && g.slot = f.slot && g.out.isNone && f.left < g.gone
  if d.ring.any clash then
    let d1 := { d with nonce := d.nonce + 1 }
    if Config.freeBool d.nonce then
      { d1 with ring := d.ring.map (fun g => if clash g then g.leave d.sched.sc else g) ++ [f] }.tidyRing
    else d1
  else { d with ring := d.ring ++ [f] }

/-- A generation mismatch at an injection stop, which stops (R111, R352). -/
def Dev.ringFault (d : Dev) (b : InjBuf) : Dev :=
  let y := b.yard
  let j := b.desc.inj
  let found := match d.region j.region with | some _ => (d.tag j.region).cur | none => 0
  let d1 :=
    if d.flag fRING_VFAULT_VALID [y] then d.setF fRING_VFAULT_MORE [y] 1
    else (d.setWord .rRING_VFAULT [y] (BitVec.ofNat 64
        (2 ^ 63 + b2n j.ccw * 2 ^ 61 + j.stop % 4 * 2 ^ 59 + found % 65536 * 2 ^ 32 + j.gen % 65536 * 2 ^ 16 + j.region % 65536))).setWord
      .rRING_VFAULT_SC [y] (BitVec.ofNat 64 d.sched.sc)
  (d1.stopFault { code := 6, detail := j.stop, yard := y, kind := 3, pos := j.stop }).stopUnit (injUnit y j.ccw j.stop)

/-- RING_INJECTION (R111). -/
def execRingInjection (yard : Fin 4) (ccw : Bool) (stop : Fin 3) (ecc : Ecc) (s : State) :
    Host.Outcome State Fault Refusal :=
  s.upd fun _ d =>
    match d.injectionDue yard.val ccw stop.val with
    | none => d
    | some b =>
      let j := b.desc.inj
      let d0 := d.unitEcc ecc 1 yard.val 3 stop.val (injUnit yard.val ccw stop.val)
      if d0.isStopped (injUnit yard.val ccw stop.val) then d0 else
      let d1 := { d0 with inject :=
        if b.next + 1 ≥ j.flits then d0.inject.erase b
        else d0.inject.map fun (c : InjBuf) => if c = b then { c with next := c.next + 1 } else c }
      match d.tagSlot j.region j.gen with
      | none => d1.ringFault b
      | some slot =>
        let (bs, d1) := d1.flitBytes b slot
        let f : RingFlit :=
          { yard := yard.val, ccw := ccw, stop := stop.val, left := d.sched.sc, inj := j, idx := b.next,
            data := bs.take b.desc.len, side := bs.drop b.desc.len, done := [] }
        ((d1.putFlit f).count (if ccw then .rRING_FLITS_CCW else .rRING_FLITS_CW) [yard.val] 1).busyUntil f.gone

/-! ## Delivery -/

/-- A flit to be delivered to an engine from a ring now. -/
def Dev.deliveryDue (d : Dev) (e : MEng) (ccw : Bool) : Option (RingFlit × Nat) :=
  d.ring.findSome? fun f =>
    if f.yard = e.yard.val ∧ f.ccw = ccw then (f.lapDue e.idx.val d.sched.sc).map fun l => (f, l) else none

/-- Cell rate of the MMA that a stream comes to after `skip` more steps: quarter K-steps a step (R73). -/
def StreamImg.rateAhead (g : StreamImg) : Nat → Nat → StreamPos → Option Nat
  | 0, _, _ => none
  | fuel + 1, skip, p =>
    if p.ended then none
    else
      let q := g.advance 0 p
      match g.word p.pc with
      | none => none
      | some (_, .mma _ f) =>
        let r : MmaRun := { f := f, home := 0, first := 0 }
        if skip < r.steps then some r.rate else g.rateAhead fuel (skip - r.steps) q
      | some (_, .mloop _ count len) => g.rateAhead fuel skip { q with loops := (q.pc, q.pc + len.toNat, count.toNat + 1) :: q.loops }
      | some _ => g.rateAhead fuel skip q

/-- Cell rate at which the next entries of a manger are consumed: that of the MMA they will meet (R64, R107), issued already or
still to come in the engine's stream; where there is none, the flit's own format sets it (log entry 31). -/
def Dev.entryRate (d : Dev) (e : MEng) (key fmt : Nat) : Nat :=
  let m := d.m e
  let rec go (skip : Nat) : List MmaRun → Nat
    | [] =>
      match Tab.find d.sched.streams (mNo e), d.sched.image.bind fun im => im.streams.find? fun g => g.engine = mNo e with
      | some p, some g => (g.rateAhead 1024 skip p).getD (rate4 fmt)
      | _, _ => rate4 fmt
    | r :: rs => if skip < r.steps - r.taken then r.rate else go (skip - (r.steps - r.taken)) rs
  go (Tab.get [] m.mangers key).length m.mmas

/-- Entries of one manger from its 16 lanes: `el lane k` is an element, `count` the K-steps, `scales k` the scale bytes of a
block that begins at K-step `k` (R73, R81, R107, R108). -/
def ringEntries (fmt rate count : Nat) (el : Nat → Nat → Nat) (scales : Nat → List Nat) : List Entry :=
  (List.range (count * 4 / max 1 rate)).map fun j =>
    let k := if rate < 4 then j / 4 else j * (rate / 4)
    let bitsOf (l : Nat) : Nat :=
      if rate < 4 then el l k / 256 ^ (j % 4) % 256
      else (List.range (rate / 4)).foldr (fun i acc => el l (k + i) + acc * 2 ^ fmtBits fmt) 0
    ⟨(List.range 16).map bitsOf, if rate < 4 && j % 4 ≠ 0 then [] else scales k⟩

/-- What a flit gives an engine's mangers on a lap: manger groups with their entries (R107 to R109). -/
def RingFlit.entries (f : RingFlit) (d : Dev) (e : MEng) (lap : Nat) : Bool × List (Nat × List Entry) :=
  let j := f.inj
  let c := j.carry f.idx lap
  let el (k l : Nat) : Nat := elemAt j.fmt f.data (k * j.lb + l)
  (c.row, (List.range (c.lanes / 16)).map fun i =>
    let grp := c.lane / 16 + i
    let rate := d.entryRate e (mangerKey c.row grp) j.fmt
    if j.turned lap then (grp, ringEntries j.fmt rate c.ksteps (fun l k => el (16 * i + l) k) fun _ => [])
    else
      let k0 := f.idx / max 1 j.g * j.kb
      let scales (k : Nat) : List Nat :=
        if j.scaled && (k0 + k) % 32 = 0 then
          let block := (k0 + k) / 32 - ceilDiv k0 32
          (f.side.drop (block * j.lb + 16 * i)).take 16
        else []
      (grp, ringEntries j.fmt rate c.ksteps (fun l k => el k (16 * i + l)) scales))

/-- RING_DELIVERY (R104, R105, R112): of two flits in one sc, which is delivered is not defined. An engine that has stopped takes none
(R352). -/
def execRingDelivery (e : MEng) (ccw : Bool) (ecc : Ecc) (s : State) : Host.Outcome State Fault Refusal :=
  s.upd fun _ d =>
    match d.deliveryDue e ccw with
    | none => d
    | some (f, lap) =>
      let y := e.yard.val
      let d0 := d.unitEcc ecc 2 y 0 (d.mPos e) (mNo e)
      let d1 := { d0 with ring := d0.ring.map fun (g : RingFlit) =>
        if g = f then { g with done := (16 * lap + e.idx.val) :: g.done } else g }.tidyRing
      if d1.cmdFenced y 0 (d1.mPos e) then d1.count .rRING_DISCARD [y] 1
      else if d1.isStopped (mNo e) then d1
      else
        let m := d1.m e
        let feed (d : Dev) : Dev :=
          let m := d.m e
          let (row, gs) := f.entries d e lap
          let d1 := d.setM e { m with ringAt := some d.sched.sc, ringBefore := m.mangers }
          gs.foldl (fun d g => g.2.foldl (fun d en => d.feedManger e row g.1 en) d) d1
        if m.ringAt = some d1.sched.sc then
          let d2 := { d1 with nonce := d1.nonce + 1 }
          if Config.freeBool d1.nonce then feed (d2.setM e { m with mangers := m.ringBefore }) else d2
        else feed d1

/-! ## Removal -/

/-- FLIT_REMOVAL (R100): the slot is free; copies of the flit that were taken before go on through the shift lanes. -/
def execFlitRemoval (yard : Fin 4) (ccw : Bool) (slot : Fin 84) (s : State) : Host.Outcome State Fault Refusal :=
  s.upd fun _ d =>
    { d with ring := d.ring.map fun (f : RingFlit) =>
        if f.yard = yard.val && f.ccw == ccw && f.slot = slot.val && f.gone ≤ d.sched.sc && f.out.isNone then f.leave f.gone
        else f }.tidyRing

end Sys2Proof.Machine
end

