-- ==== Sys2Proof/Machine/Run.lean ====
section
/-! DEFINITION. The hold controller of a run (R31 to R37), anchors and slips (R45 to R48, R389), and HALT and RESUME
(R329, R330). -/
namespace Sys2Proof.Machine

/-! ## Time -/

/-- An arithmetic period in units of 1/9 tc, which is the VCO divider in force (R288, R289). -/
def Dev.periodLen (d : Dev) : Nat := d.getF fCLK_PLL_DIVIDER [0]

/-- Periods from now to the first edge at or after an instant. -/
def Dev.periodsTo (d : Dev) (t : Nat) : Nat := ceilDiv (t - d.time) d.periodLen

/-- The instant a mark begins (R43). -/
def markTime (m : Nat) : Nat := m * 8192 * 9

/-- A relock is in progress (R35): a PLL is not locked, the meshes settle after a divider switch, or the switch is awaited. -/
def Dev.relocking (d : Dev) : Bool :=
  ([0, 1, 2, 3].any fun y => !d.flag fCLK_PLL_LOCKED [y]) || d.clocks.settleAt.isSome ||
    (match d.clocks.change with | some c => c.frozen | none => false)

/-! ## Replies owed when a run stops -/

/-- The first instant a HALT's freeze is in effect: its replies are written (R329). -/
def Dev.haltsDone (d : Dev) : Dev :=
  let owed := d.halts
  owed.foldl (fun d o => d.complete o .ok 0) { d with halts := [] }

/-- The run has ended or stopped before the freeze of a HALT: BUSY, with HST_STATE as the run left it (R329). -/
def Dev.haltsBusy (d : Dev) : Dev :=
  let owed := d.halts
  owed.foldl (fun d o => d.complete o .busy d.hstState) { d with halts := [] }

/-- Bytes that a cancelled RESTORE or a copy cut short leaves undefined, as blocks of address and length (R320, R359). -/
def Dev.scramble (d : Dev) (blocks : List (Nat × Nat × Nat)) : Dev :=
  blocks.foldl (fun d k =>
    Dev.writes { d with nonce := d.nonce + k.2.2 } k.1 ((List.range k.2.2).map fun i => Config.freeWord (d.nonce + i) % 256)) d

/-- A snapshot whose copy has been cut short: its header is not valid, and what it has written of the rest is undefined (R359). -/
def Dev.dropCopy (d : Dev) (r : SnapReq) : Dev :=
  match r.writing, locate r.dst with
  | true, .ddr _ _ => (d.scramble [(r.dst, 0, r.len)]).writes r.dst (List.replicate 256 0)
  | _, _ => d

/-- A pending SNAPSHOT_AT ends with BUSY (R359). -/
def Dev.snapBusy (d : Dev) : Dev :=
  match d.snapReq with
  | none => d
  | some r => ((Dev.dropCopy { d with snapReq := none } r).withHold fun h => { h with snap := false }).complete r.owed .busy 0

/-! ## Anchors -/

/-- The next anchor of the run: its sc and relative mark (R45). -/
def Sched.curAnchor (s : Sched) : Option (Nat × Nat) := s.image.bind fun im => im.anchors[s.anchor]?

/-- Target time of an anchor, in 1/9 tc (R45). -/
def Sched.target (s : Sched) (r : Nat) : Nat := markTime (s.base + r + s.slips)

/-- No late item, HALT, relock or snapshot keeps the anchor at sc `a` (R46). -/
def Dev.anchorFree (d : Dev) (a : Nat) : Bool :=
  let h := d.sched.hold
  (d.sched.board.all fun e => e.done || !(decide (e.due ≤ a + 31) || e.anchor = some d.sched.anchor)) &&
    !h.halt && !d.relocking && !h.snap

/-- The freeze is that of the current anchor. -/
def Sched.atAnchor (s : Sched) : Bool :=
  match s.curAnchor with
  | some (a, _) => s.hold.freeze = some a && bit s.hold.causeSet 6
  | none => false

/-- Instant Q has come: the present edge, or an earlier one, lies 24 periods before the first edge at or after T. -/
def Dev.judgeDue (d : Dev) : Bool :=
  match d.sched.curAnchor with
  | none => false
  | some (_, r) => d.run.inRun && d.sched.hold.judged.isNone && decide (d.time + 24 * d.periodLen ≥ d.sched.target r)

/-- The instant the freeze at the anchor takes effect: when it did, or when sc `a` is reached. -/
def Dev.effectTime (d : Dev) (a : Nat) : Nat :=
  if d.sched.hold.held then d.sched.hold.frozenAt else d.time + (a - d.sched.sc) * d.periodLen

/-- A slip is counted (R47, R48): trigger source 2. -/
def Dev.countSlip (d : Dev) (a : Nat) : Dev :=
  (d.count .rSCH_SLIP_EVENTS [] 1).setWord .rSCH_SLIP_LAST [] (BitVec.ofNat 64 a)

/-- The anchor is not met (R47); with SLIP_HALT the part stays frozen as if a HALT had arrived (R48). The bit HALT of CAUSE_SET
stays clear, since no HALT has arrived (DEDUCED; log entry 72). -/
def Dev.slip (d : Dev) (a : Nat) : Dev :=
  let d1 := (d.joinHold 7).fire 2 7
  if d1.sched.hold.slipHalt && !d1.sched.hold.again then
    ((d1.countSlip a).withHold fun h => { h with halt := true }).enter .halted
  else d1.withHold fun h => { h with slip := true }

/-- Add to SCH_SLIP_MARKS, a performance counter of 48 bits (Table 2-10, R372, R373). -/
def Dev.addMarks (d : Dev) (n : Nat) : Dev :=
  let v := d.sched.slips + n
  let d1 := d.withSched fun s => { s with slips := v % 2 ^ 48 }
  if v ≥ 2 ^ 48 then (d1.noteWrap .rSCH_SLIP_MARKS []).fire 27 0 else d1

/-- The bound receives of a slipped anchor are complete: the new mark is chosen (R47). -/
def Dev.chooseMark (d : Dev) (a r : Nat) : Dev :=
  let q := d.time + 24 * d.periodLen
  let m0 := d.sched.base + r + d.sched.slips
  let n := max 1 (ceilDiv q (markTime 1) - m0)
  ((d.countSlip a).addMarks n).withHold fun h => { h with slipMark := some (m0 + n) }

/-- ANCHOR_EVALUATION (R46 to R48): judge at Q; release a met anchor, which is a slip if its freeze then takes effect after T;
find a slip once the freeze is in effect; choose the mark of a slip. -/
def Dev.evaluateAnchor (d : Dev) : Dev :=
  match d.sched.curAnchor with
  | none => d
  | some (a, r) =>
    if !d.run.inRun || d.sched.stop.isSome then d
    else
      let d1 := if d.judgeDue then d.withHold fun h => { h with judged := some (d.anchorFree a) } else d
      let h := d1.sched.hold
      let T := d1.sched.target r
      if !d1.sched.atAnchor || h.halt then d1
      else if h.met then
        if h.held && decide (T < h.frozenAt) then
          (d1.withHold fun h => { h with met := false, releasing := none, judged := some false }).slip a
        else d1
      else if h.slip then
        if h.slipMark.isNone && d1.anchorFree a then d1.chooseMark a r else d1
      else
        match h.judged with
        | none => d1
        | some ok =>
          if ok && decide (d1.effectTime a ≤ T) then
            d1.withHold fun h => { h with met := true, releasing := some (d1.periodsTo T) }
          else if h.held then d1.slip a
          else d1

/-- Whether ANCHOR_EVALUATION would change anything now. -/
def Dev.anchorWork (d : Dev) : Bool := decide (d.evaluateAnchor ≠ d)

def execAnchorEvaluation (s : State) : Host.Outcome State Fault Refusal := s.upd fun _ d => d.evaluateAnchor

/-- The freeze of the next anchor is to be broadcast: sc a − 24 is reached (R46), and no other freeze is in effect. For an anchor at
sc 0 to 23 that sc lies before the run, and its freeze is broadcast as soon as the run is set up (DEDUCED; log entry 73). -/
def Dev.anchorFreezeDue (d : Dev) : Bool :=
  match d.sched.curAnchor with
  | none => false
  | some (a, _) =>
    let h := d.sched.hold
    d.run.inRun && d.sched.stop.isNone && !h.held && decide (d.sched.sc + 24 ≥ a) && !h.waiting && !d.sched.atAnchor

/-- ANCHOR_FREEZE (R46, R389): an earlier freeze makes the anchor's own freeze wait. -/
def Dev.anchorFreeze (d : Dev) : Dev :=
  match d.sched.curAnchor with
  | none => d
  | some (a, _) =>
    if !d.anchorFreezeDue then d
    else
      let d1 := d.withHold fun h => { h with slipHalt := d.flag fSCH_CTL_SLIP_HALT [] }
      match d1.sched.hold.freeze with
      | some f => if f < a then d1.withHold fun h => { h with waiting := true } else d1.startHold 6 a
      | none => d1.startHold 6 a

def execAnchorFreeze (s : State) : Host.Outcome State Fault Refusal := s.upd fun _ d => d.anchorFreeze

/-- SLIP_RESUME: 24 periods before the first edge at or after the new mark the release is on its way (R47). -/
def Dev.slipResumeDue (d : Dev) : Bool :=
  let h := d.sched.hold
  match h.slipMark with
  | some m => d.sched.stop.isNone && h.held && !h.halt && !d.relocking && !h.snap && h.releasing.isNone &&
      decide (d.time + 24 * d.periodLen ≥ markTime m)
  | none => false

def execSlipResume (s : State) : Host.Outcome State Fault Refusal :=
  s.upd fun _ d =>
    match d.sched.hold.slipMark with
    | some m =>
      if d.slipResumeDue then d.withHold fun h => { h with releasing := some (max 24 (d.periodsTo (markTime m))) } else d
    | none => d

/-! ## The scoreboard -/

/-- Entries whose horizon is examined in this sc, or was passed before they could be (R31). -/
def Dev.horizonDue (d : Dev) : List SbEntry :=
  if !d.run.inRun || d.sched.hold.held then []
  else d.sched.board.filter fun e => e.anchor.isNone && !e.checked && e.due = d.sched.sc + 32

/-- HORIZON_CHECK (R31, R33). -/
def Dev.checkHorizon (d : Dev) : Dev :=
  let hit := d.horizonDue
  let mark (e : SbEntry) : SbEntry := if hit.contains e then { e with checked := true } else e
  let d1 := d.withSched fun s => { s with board := s.board.map mark }
  hit.foldl (fun d e =>
    if e.done then d
    else d.startHold e.cause (d.sched.sc + 24)) d1

def execHorizonCheck (s : State) : Host.Outcome State Fault Refusal := s.upd fun _ d => d.checkHorizon

/-- ITEM_COMPLETION: the next completion on its way reaches the scoreboard (R31). -/
def execItemCompletion (s : State) : Host.Outcome State Fault Refusal :=
  s.upd fun _ d =>
    match d.sched.reports with
    | [] => d
    | i :: rest => d.withSched fun s => { s with reports := rest }.record i

/-! ## Freeze, release and resumption -/

/-- A pending freeze takes effect now: sc F has been reached, and a fault of the sc before has been reported. -/
def Dev.freezeDue (d : Dev) : Bool :=
  let h := d.sched.hold
  match h.freeze with
  | some f => d.run.inRun && !h.held && decide (d.sched.sc = f) && (d.sched.begun || f = 0) &&
      (match d.sched.stop with | some st => st.raised | none => true)
  | none => false

/-- FREEZE (R32, R33): the run state follows from why (R332), and a HALT's reply is written (R329). -/
def Dev.freeze (d : Dev) : Dev :=
  if !d.freezeDue then d
  else
    let d1 := (d.withHold fun h => { h with held := true, frozenAt := d.time, periods := 0 }).countCauses
    if d1.sched.stop.isSome then (d1.enter .faulted).haltsBusy.snapBusy
    else if d1.sched.hold.halt then (d1.enter .halted).haltsDone
    else d1.enter .held

def execFreeze (s : State) : Host.Outcome State Fault Refusal := s.upd fun _ d => d.freeze

/-- The conditions of R35, with the freeze pending or in effect and no anchor at or before F unmet. -/
def Dev.releaseDue (d : Dev) : Bool :=
  let h := d.sched.hold
  match h.freeze with
  | none => false
  | some f =>
    let anchored := match d.sched.curAnchor with | some (a, _) => decide (a ≤ f) | none => false
    d.run.inRun && h.isHold && d.sched.stop.isNone && h.releasing.isNone && !anchored && !h.halt && !d.relocking && !h.snap &&
      (d.sched.board.all fun e => e.done || decide (f + 31 < e.due))

/-- HOLD_RELEASE (R35). -/
def execHoldRelease (s : State) : Host.Outcome State Fault Refusal :=
  s.upd fun _ d => if d.releaseDue then d.withHold fun h => { h with releasing := some 24 } else d

def Dev.resumeDue (d : Dev) : Bool :=
  let h := d.sched.hold
  d.run.inRun && h.held && h.releasing = some 0 && d.sched.stop.isNone

/-- The length of a hold that ends with the resumed cycle (R37). -/
def Dev.measureHold (d : Dev) : Dev :=
  let h := d.sched.hold
  let d1 := d.setWord .rSCH_HOLD_LEN [] (BitVec.ofNat 64 (min h.periods (2 ^ 48 - 1)))
  (d1.count .rSCH_HOLD_TOTAL [] h.periods).sample 0x0A 0 (h.periods : Int)

/-- The freeze is over; what SCH_HOLD_STAT says of it stays (Table 2-9). -/
def Hold.clear (h : Hold) : Hold :=
  { cause := h.cause, causeSet := h.causeSet, flags := h.flags, freezeReg := h.freezeReg, periods := h.periods,
    again := h.again, judged := h.judged, waiting := h.waiting, slipHalt := h.slipHalt }

/-- ENGINES_RESUME (R35, R37): the engines execute sc F; an anchor there is passed (R46, R47), and one that waited freezes
next (R389). -/
def Dev.resumeEngines (d : Dev) : Dev :=
  if !d.resumeDue then d
  else
    let passed := d.sched.atAnchor
    let waiting := d.sched.hold.waiting
    let d1 := { d.measureHold with fab := { d.fab with retried := false } }
    let d2 := d1.withSched fun s =>
      { s with begun := s.begun || passed || decide (d.time ≥ markTime s.base), before := none, anchor := if passed then s.anchor + 1 else s.anchor,
               hold := if passed then { s.hold.clear with again := false, judged := none } else s.hold.clear }
    let d3 := d2.enter .running
    match waiting, d3.sched.curAnchor with
    | true, some (a, _) => (d3.withHold fun h => { h with waiting := false }).startHold 6 a
    | _, _ => d3

def execEnginesResume (s : State) : Host.Outcome State Fault Refusal := s.upd fun _ d => d.resumeEngines

/-! ## HALT and RESUME -/

/-- HALT (R36, R329). -/
def execHalt (h : Hdr) (s : State) : Host.Outcome State Fault Refusal :=
  s.upd fun _ d => d.command 0x13 h fun o d =>
    if d.run = .halted then d.complete o .ok 0
    else
      let f := if d.sched.begun then d.sched.sc + 24 else 0
      let d1 := (({ d with halts := d.halts ++ [o] }.startHold 9 f).withHold fun h =>
        { h with halt := true, slip := false, slipMark := none })
      if d1.sched.hold.held && d1.sched.stop.isNone then (d1.enter .halted).haltsDone else d1

/-- RESUME (R330); at an anchor the freeze counts as taking effect now (R48). -/
def Dev.resume (d : Dev) : Dev :=
  let d1 := d.withHold fun h => { h with halt := false }
  let d2 :=
    match d1.sched.curAnchor with
    | some (_, r) =>
      if d1.sched.atAnchor then
        let late := decide (d1.time + 23 * d1.periodLen ≥ d1.sched.target r)
        d1.withHold fun h =>
          { h with frozenAt := d1.time, again := true, met := false, slip := false, slipMark := none,
                   judged := if late then some false else none }
      else d1
    | none => d1
  if d2.releaseDue then d2.withHold fun h => { h with releasing := some 24 }
  else if d2.sched.hold.releasing.isSome then d2 else d2.enter .held

def execResume (h : Hdr) (s : State) : Host.Outcome State Fault Refusal :=
  s.upd fun _ d => d.command 0x14 h fun o d => d.resume.complete o .ok 0

end Sys2Proof.Machine
end

