-- ==== Sys2Proof/Machine/RunEnds.lean ====
section
/-! DEFINITION. How a run begins and ends: START (R328) and what it clears, the end of a run (R192), ABORT (R331), the
RUN_FAULT event (R352, R355), and time marks (R43). -/
namespace Sys2Proof.Machine

/-! ## What a run leaves behind -/

/-- The engine keeps its registers and accumulators; instructions under way and reads on their way are gone. -/
def MState.halted (m : MState) : MState :=
  { m with mmas := [], reads := [], reshape := none, drains := [], ringAt := none, ringBefore := [], last := none }

def mapVals {α : Type} (f : α → α) (t : List (Nat × α)) : List (Nat × α) := t.map fun e => (e.1, f e.2)

/-- The schedule after a run: no stream, entry, hold or fault; SCH_SC and the anchors' registers keep their values (R331). -/
def Sched.ended (s : Sched) : Sched :=
  { s with sc := s.shown, before := none, begun := false, hold := { s.hold.clear with again := false, judged := none, waiting := false }, board := [],
           reports := [], inFlight := [], streams := [], stopped := [], stop := none, lastBusy := 0 }

/-- Everything of the run is gone from the engines, the rings and the network. -/
def Dev.clearRun (d : Dev) : Dev :=
  { d with sched := d.sched.ended, mEng := mapVals MState.halted d.mEng, ring := [], net := [], banks := { next := d.banks.next } }

/-- Freeze the engines at once, stop every transfer engine and update unit, and enter the state that follows (R331). -/
def Dev.stopAll (d : Dev) (st : PartState) : Dev := ((d.abortTransfers.abortUpdates.clearRun).enter st).haltsBusy.snapBusy

/-! ## What START and RESTORE clear -/

def Dev.clearEach (d : Dev) (r : RegName) (n : Nat) : Dev := (List.range n).foldl (fun d i => d.setWord r [i] 0) d

/-- Bits of a register cleared. -/
def Dev.clearBits (d : Dev) (r : RegName) (idx : List Nat) (hi lo : Nat) : Dev :=
  d.setWord r idx (BitVec.ofNat 64 (putBits (d.word r idx).toNat hi lo 0))

/-- Schedule, recorder, clock, memory, transfer and network registers (R50, R230, R249, R266, R308, R373). -/
def Dev.clearGlobal (d : Dev) : Dev :=
  let d1 := [RegName.rSCH_HOLD_LEN, .rSCH_VIOL_STAT, .rSCH_VIOL_SC, .rSCH_SLIP_EVENTS, .rSCH_SLIP_LAST, .rREC_FAULT,
    .rREC_FAULT_SC, .rREC_BOUNDS_ADDR, .rREC_OVF_ADDR].foldl (fun d r => d.setWord r [] 0) d
  let d2 := ((((d1.clearEach .rMEM_ECC_UE_SC 20).clearEach .rMEM_LAT_MAX 20).clearEach .rNOC_LAT_MAX 4).clearEach .rRING_VFAULT
    4).clearEach .rRING_VFAULT_SC 4
  let d3 := (List.range 4).foldl (fun d y => d.setF fSCH_SB_USE_PEAK [y] 0) d2
  let d4 := (List.range 32).foldl (fun d x => d.setF fXFR_STAT_LOST [x] 0) d3
  { (List.range 16).foldl (fun d r => d.setF fCLK_REGION_SKEW_MAX [r] 0) d4 with boundsSeen := false }

/-- Engine status (R98, R158), the extremes since START (Table 4-14), and the shape SQUARE (R77). -/
def Dev.clearEngines (d : Dev) : Dev :=
  let d1 := (List.range 64).foldl (fun d i =>
    let e := [i / 16, i % 16]
    ((((d.clearBits .rENG_MSTAT e 4 0).setF fENG_MSTAT_SHAPE e 0).setWord .rENG_MSDC e 0).setWord .rENG_MSDC_SC e 0).setWord
      .rENG_MMANGER e 32) d
  (List.range 32).foldl (fun d i =>
    let e := [i / 8, i % 8]
    ((((d.clearBits .rENG_VSTAT e 5 0).clearBits .rENG_VSLOT e 7 7).clearBits .rENG_VSLOT e 15 15).clearBits .rENG_VSLOT e 23
      23).clearBits .rENG_VSLOT e 31 31) d1

/-- Status words of the update units, and the group tables of the image (R161, R164, R175). -/
def Dev.clearUpdates (d : Dev) : Dev :=
  let d1 := (List.range 20).foldl (fun d u =>
    let a := regOffset .rUPD_GSTAT [u, 0]
    let step := regOffset .rUPD_GSTAT [u, 1] - a
    let d1 := (d.setWord .rUPD_FAULT [u] 0).setWord .rUPD_FAULT_POS [u] 0
    { d1 with regs := d1.regs.filter fun r => !(decide (a ≤ r.1) && decide (r.1 < a + step * 256) && (r.1 - a) % step == 0) }) d
  match d1.sched.image with
  | some im => d1.writeGroups im
  | none => d1

/-- A flit that brings a packet of the fabric, which no run of this device owns (R276, R331). -/
def DynFlit.passing (f : DynFlit) : Bool := match f.cargo with | .transit _ _ => true | _ => false

/-- The engines at the start of a run: registers undefined (R141, R179, R184), origins (0, 0) (R122, R182), empty mangers;
accumulators keep what they hold. -/
def Dev.freshEngines (d : Dev) : Dev :=
  { d with gen := d.nonce + 1, nonce := d.nonce + 1, vEng := [], sEng := [],
           mEng := mapVals (fun (m : MState) => { accA := m.accA, accB := m.accB }) d.mEng,
           ring := [], net := [], inject := [], xfer := [], gradPort := [], updSent := [], nodes := [],
           fab := { d.fab with nodes := [], adders := [], retried := false }, upd := [], dyn := d.dyn.filter DynFlit.passing,
           banks := { next := d.banks.next }, ueSeen := [] }

/-- What START clears, and RESTORE with it (R361). -/
def Dev.clearStart (d : Dev) : Dev :=
  let d1 := d.clearUpdates.clearEngines.clearGlobal.freshEngines
  d1.withSched fun s =>
    { s with sc := 0, before := some s.shown, begun := false, slips := 0, anchor := 0, hold := {}, board := [], nextItem := 0, reports := [], inFlight := [],
             order := 0, streams := [], stopped := [], lastBusy := 0, stop := none }

/-- Every stream at its first word (R25). -/
def Image.positions (im : Image) : List (Nat × StreamPos) :=
  im.streams.foldl (fun t (s : StreamImg) => if s.words.isEmpty then t else Tab.insert t s.engine s.begin) []

/-! ## START -/

/-- The first mark that begins at least 16,384 tc after now (R328). -/
def Dev.autoMark (d : Dev) : Nat := ceilDiv (d.sched.tc + 16384) 8192

/-- The time state lets an image that uses the fabric start (R286). -/
def Dev.timeGood (d : Dev) : Bool := d.getF fFAB_TIME_STAT_STATE [] = 2 || d.getF fFAB_TIME_STAT_STATE [] = 4

/-- START's checks, in order (R328): the status they give. -/
def Dev.startStatus (d : Dev) (im : Image) (auto : Bool) (base : Nat) : Status :=
  if !d.check5 im then .membershipEpoch
  else if !d.canServe im || !d.domainsOn then .fenced
  else if im.multi && !d.timeGood then .busy
  else if !auto && decide (base * 8192 < d.sched.tc + 16384) then .badParam
  else .ok

/-- The run is set up: RUNNING, and sc 0 begins at mark `b` (R45, R328). -/
def Dev.startRun (d : Dev) (im : Image) (b : Nat) : Dev :=
  let d1 := d.assign.clearStart
  (d1.withSched fun s => { s with base := b, streams := im.positions }).enter .running

/-- START (R328): parameters BASE and FLAGS (Table 16-8). -/
def execStart (h : Hdr) (base : Word) (flags : Byte) (s : State) : Host.Outcome State Fault Refusal :=
  s.upd fun _ d => d.command 0x12 h fun o d =>
    let auto := bit flags.toNat 0
    match d.sched.image with
    | none => d.complete o .busy 0
    | some im =>
      if flags.toNat ≥ 2 then d.complete o .badParam 0
      else
        let st := d.startStatus im auto base.toNat
        if st = .ok then
          let b := if auto then d.autoMark else base.toNat
          (d.startRun im b).complete o .ok b
        else d.complete o st 0

/-! ## The end of a run -/

/-- The conditions of R192 for the end of a run. -/
def Dev.runDone (d : Dev) : Bool :=
  let s := d.sched
  d.run.inRun && s.begun && !s.hold.held && s.stop.isNone && s.streams.all (fun e => e.2.ended) && s.inFlight.isEmpty &&
    decide (s.lastBusy < s.sc) && s.board.all (fun e => e.done) && d.ring.isEmpty && d.inject.isEmpty && d.net.isEmpty &&
    d.mEng.all fun e => e.2.mmas.isEmpty && e.2.reads.isEmpty && e.2.drains.isEmpty && e.2.reshape.isNone

/-- RUN_END (R192, R332): a HALT or a snapshot whose freeze has not come completes with BUSY (R329). -/
def execRunEnd (s : State) : Host.Outcome State Fault Refusal :=
  s.upd fun _ d => if d.runDone then ((d.clearRun.enter .loaded).haltsBusy).snapBusy else d

/-! ## ABORT -/

/-- The memory blocks of a snapshot: address, where the bytes stand in it, length (R360). -/
def snapBlocks (b : List Nat) : List (Nat × Nat × Nat) :=
  let n := field b 0x48 8
  (dataBlocks b b.length (0x100 + ceilDiv n 16 * 16)).1

/-- A RESTORE that ends before its time: engine registers and the bytes of its memory blocks are undefined (R320). -/
def Dev.loseRestore (d : Dev) (b : List Nat) : Dev :=
  Dev.scramble { d with gen := d.nonce + 1, nonce := d.nonce + 1, vEng := [], sEng := [] } (snapBlocks b)

/-- A RESTORE that ends with a status of its own before its time (R320, R321). -/
def Dev.failRestore (d : Dev) (o : Owed) (b : List Nat) (st : Status) : Dev := (d.loseRestore b).complete o st 0

/-- ABORT cancels the LOAD_IMAGE or RESTORE in progress (R320). -/
def Dev.cancelLong (d : Dev) : Dev :=
  match d.long with
  | none => d
  | some l =>
    match l.work with
    | .load _ _ _ => Dev.failLoad { d with long := none } l.owed .busy
    | .restore b => Dev.failRestore { d with long := none } l.owed b .busy
    | .verify _ | .commit | .train _ => d

/-- ABORT's own work (R331). -/
def Dev.abort (d : Dev) : Dev :=
  if d.run = .ready ∨ d.run = .loaded then d.cancelLong
  else
    if d.tripped then { (d.stopAll .ready).withSched (fun s => { s with image := none }) with tripped := false } else d.stopAll .loaded

def execAbort (h : Hdr) (s : State) : Host.Outcome State Fault Refusal :=
  s.upd fun _ d => d.command 0x15 h fun o d => d.abort.complete o .ok 0

/-! ## A stopping fault -/

/-- RUN_FAULT may be raised: the sc of the fault is over, or never ends (R352). -/
def Dev.runFaultDue (d : Dev) : Bool :=
  match d.sched.stop with
  | some st => d.run.inRun && !st.raised && (decide (st.sc < d.sched.sc) || d.sched.hold.held || !d.sched.begun)
  | none => false

/-- The RUN_FAULT event of the stopping fault, which marks the fault as raised; the firmware marks the router of a failing
router buffer (R352, R355). -/
def Dev.reportFault (d : Dev) : Dev :=
  let code := d.getF fREC_FAULT_CODE []
  let f := d.sched.hold.freeze.getD 0
  let st := faultStatus code
  let d1 := d.event .all 0x02 st ((d.word .rREC_FAULT []).toNat + f * 2 ^ 64)
  let d2 := Dev.withSched { d1 with lastFault := st.code } fun s =>
    { s with stop := s.stop.map fun x => { x with raised := true } }
  if code = 5 && d2.getF fREC_FAULT_DETAIL [] = 3 then
    d2.markRouter (d2.getF fREC_FAULT_YARD []) (d2.getF fREC_FAULT_UNIT [] % 64) else d2

/-- RUN_FAULT (R352): the event, then, where the engines are already frozen, FAULTED. -/
def Dev.raiseFault (d : Dev) : Dev :=
  if !d.runFaultDue then d
  else if d.sched.hold.held then (d.reportFault.enter .faulted).haltsBusy.snapBusy else d.reportFault

def execRunFault (s : State) : Host.Outcome State Fault Refusal := s.upd fun _ d => d.raiseFault

/-! ## Time marks -/

def Dev.markDue (d : Dev) : Bool := decide (d.sched.mark < d.sched.tc / 8192)

/-- TIME_MARK (R43): SCH_MARK_SC takes SCH_SC; TMARK is high for the first 32 tc of a mark. -/
def execTimeMark (s : State) : Host.Outcome State Fault Refusal :=
  s.upd fun _ d =>
    if d.markDue then
      (d.withSched fun s => { s with mark := s.tc / 8192 }).setWord .rSCH_MARK_SC [] (BitVec.ofNat 64 d.sched.shown)
    else d

end Sys2Proof.Machine
end

