-- ==== Sys2Proof/Machine/Clocks.lean ====
section
/-! DEFINITION. Clocks and adaptive loops (15): operating points and their change (R294 to R296), PLL relock (R297, R298),
stretching and its windows (R291 to R293), the voltage loop (R302, R303), the power limit (R304, R305) and the throttle
(R306). -/
namespace Sys2Proof.Machine

def Dev.mapClocks (d : Dev) (f : Clocks → Clocks) : Dev := { d with clocks := f d.clocks }

/-- VCO divider and typical rail voltage, mV, of an operating point (Table 15-1). -/
def opDivider (op : Nat) : Nat := nth 12 [12, 15, 20, 30, 60] op
def opVolt (op : Nat) : Nat := nth 750 [750, 680, 620, 580, 550] op

/-! ## Rails -/

/-- The part record's voltage of a rail at an operating point (R289). -/
def Dev.recordVolt (d : Dev) (r op : Nat) : Nat :=
  match (d.cfg.volts[r]?).bind fun l => l[op]? with
  | some v => v
  | none => opVolt op

def Dev.trim (d : Dev) (r : Nat) : Int := Tab.get 0 d.clocks.trim r

/-- Write a rail's target: record value, trim and CLK_AVS.OFS, held within 0.55 V to 0.80 V (R303). -/
def Dev.setRail (d : Dev) (r : Nat) : Dev :=
  let v := (d.recordVolt r d.clocks.railOp : Int) + d.trim r + signed 8 (d.getF fCLK_AVS_OFS [r])
  let mv := (max 550 (min 800 v)).toNat
  (d.setF fCLK_AVS_VOUT [r] mv).emit (.rail r mv)

def Dev.setRails (d : Dev) : Dev := (List.range 16).foldl Dev.setRail d

/-- Move a rail's trim, unless it is held or the rail has a fault (R302, R303). -/
def Dev.moveTrim (d : Dev) (r : Nat) (by_ : Int) : Dev :=
  if d.flag fCLK_AVS_FREEZE [r] || d.flag fCLK_AVS_FAULT [r] || by_ = 0 then d
  else
    let t := max (-30) (min 50 (d.trim r + by_))
    (d.mapClocks fun c => { c with trim := Tab.put 0 c.trim r t }).setRail r

/-- The millisecond of TREF that the present instant lies in. -/
def Dev.millisecond (d : Dev) : Nat := d.sched.ref / 7200000

/-- The voltage loop has not acted in this millisecond (R303). -/
def Dev.voltageDue (d : Dev) : Bool := d.up && decide (d.millisecond ≠ d.clocks.loopTick)

/-- VOLTAGE_LOOP_TICK (R303): once a ms, by how often each region stretched in the last 64 and 1,024 windows. -/
def execVoltageLoopTick (s : State) : Host.Outcome State Fault Refusal :=
  s.upd fun _ d =>
    if !d.voltageDue then d
    else
      (List.range 16).foldl (fun d r =>
        let h := d.clocks.history
        let recent := ((h.take 64).filter fun m => bit m r).length
        d.moveTrim r (if recent > 4 then 5 else if h.length ≥ 1024 && h.all (fun m => !bit m r) then -5 else 0))
        (d.mapClocks fun c => { c with loopTick := d.millisecond })

/-- AVS_RAIL_FAULT (R302): a change that the rail must confirm will be cancelled (R295). -/
def execAvsRailFault (region : Fin 16) (s : State) : Host.Outcome State Fault Refusal :=
  s.upd fun _ d =>
    if !d.up then d
    else
      let r := region.val
      let d1 := (d.setF fCLK_AVS_FAULT [r] 1).count .rCLK_AVS_ERR_CNT [] 1
      let d2 := d1.mapClocks fun c => { c with change := c.change.map fun x =>
        { x with unconfirmed := if x.faster then r :: x.unconfirmed else x.unconfirmed } }
      if d2.flag fCLK_CTL_AVS_EVENT [] then d2.fire 24 r else d2

/-! ## Stretching -/

/-- What windows are counted in: sc during a run, else the free-running count of periods (R292). -/
def Dev.inSc (d : Dev) : Bool := d.run.inRun && d.sched.begun
def Dev.windowNow (d : Dev) : Nat := if d.inSc then d.sched.sc else d.clocks.free

def Dev.stretchCount (d : Dev) (r : Nat) : Nat := Tab.get 0 d.clocks.counts r
def Dev.lowestCount (d : Dev) : Nat := (List.range 16).foldl (fun m r => min m (d.stretchCount r)) (d.stretchCount 0)
def Dev.highestCount (d : Dev) : Nat := (List.range 16).foldl (fun m r => max m (d.stretchCount r)) 0
def Dev.skew (d : Dev) (r : Nat) : Nat := d.stretchCount r - d.lowestCount

/-- A region has stretched in the last 31 sc (R291). -/
def Dev.justStretched (d : Dev) (r : Nat) : Bool :=
  match Tab.find d.clocks.lastAt r with
  | some t => decide (d.clocks.free < t + 32)
  | none => false

/-- One stretch of one region: its next period lasts two (R291). -/
def Dev.stretchRegion (d : Dev) (r : Nat) : Dev :=
  (d.mapClocks fun c =>
    { c with counts := Tab.put 0 c.counts r (Tab.get 0 c.counts r + 1), lastAt := Tab.insert c.lastAt r c.free,
             extra := if r = 0 then c.extra + 1 else c.extra }).count .rCLK_STRETCH_CNT [r] 1

/-- A region stretches; at a skew of 12 the regions of lowest count stretch with it (R292). -/
def Dev.stretch (d : Dev) (r : Nat) : Dev :=
  let low := d.lowestCount
  let with_ := if d.skew r ≥ 12 then (List.range 16).filter fun q => q ≠ r && d.stretchCount q = low else []
  let d1 := (r :: with_).foldl Dev.stretchRegion d
  (List.range 16).foldl (fun d q => d.maxF fCLK_REGION_SKEW_MAX [q] (d.skew q)) d1

/-- The windows are counted anew (R292): a run's from its sc, those outside a run from the free-running count. -/
def Dev.newWindow (d : Dev) : Dev :=
  d.mapClocks fun c =>
    { c with counts := [], inSc := d.inSc, boundary := d.windowNow / 1024, powerGroup := d.windowNow / 64, extra := 0 }

/-- A run has begun, ended, or been restored: the other count of windows applies from now on. -/
def Dev.windowMode (d : Dev) : Dev := if d.clocks.inSc == d.inSc then d else d.newWindow

/-- DROOP_STRETCH (R291): a droop crosses the threshold of a region; within 31 sc of its last stretch it is missed. -/
def execDroopStretch (region : Fin 16) (s : State) : Host.Outcome State Fault Refusal :=
  s.upd fun _ d =>
    let r := region.val
    if !d.up || d.sched.hold.held then d
    else if d.justStretched r then
      let d1 := ((d.setF fCLK_REGION_MISSED [r] 1).count .rCLK_MISS_CNT [r] 1).moveTrim r 10
      if d1.flag fCLK_CTL_MISSED_EVENT [] then d1.fire 21 r else d1
    else d.windowMode.stretch r

def Dev.windowDue (d : Dev) : Bool := d.clocks.inSc == d.inSc && d.clocks.boundary ≠ d.windowNow / 1024

/-- STRETCH_WINDOW_BOUNDARY (R293): every region inserts Nmax − N pace cycles, and the next window begins. -/
def execStretchWindowBoundary (s : State) : Host.Outcome State Fault Refusal :=
  s.upd fun _ d =>
    if !d.windowDue then d
    else
      let top := d.highestCount
      let d1 := (List.range 16).foldl (fun d' r =>
        let n := d.stretchCount r
        ((d'.setF fCLK_REGION_PACE_LAST [r] (top - n)).setF fCLK_REGION_STRETCH_LAST [r] n).count .rCLK_PACE_CNT [r]
          (top - n)) d
      let mask := (List.range 16).foldl (fun m r => if d.stretchCount r > 0 then m + 2 ^ r else m) 0
      d1.mapClocks fun c =>
        { c with counts := [], history := (mask :: c.history).take 1024, boundary := d.windowNow / 1024,
                 extra := c.extra + (top - d.stretchCount 0) }

/-! ## Operating points -/

/-- Schedule a change of operating point (R294, R295). A rail that has reported a fault will not confirm a faster one (R302). -/
def Dev.scheduleOp (d : Dev) (target at_ : Nat) : Dev :=
  let d1 := ((d.setF fCLK_OP_PENDING [] 1).setF fCLK_OP_TARGET [] target).setWord .rCLK_OP_AT [] (BitVec.ofNat 64 at_)
  let faster := decide (target < d.getF fCLK_OP_CURRENT [])
  let faulty := (List.range 16).filter fun r => faster && d.flag fCLK_AVS_FAULT [r]
  d1.mapClocks fun c => { c with change := some { target := target, time := at_, faster := faster, unconfirmed := faulty } }

/-- The operating point in force: the slower of REQ and LOOP (R294). -/
def Dev.opWanted (d : Dev) : Nat := max (d.getF fCLK_OP_REQ []) (d.getF fCLK_OP_LOOP [])

/-- Start a change where the operating point in force is to be another one. -/
def Dev.followOp (d : Dev) (at_ : Nat) : Dev :=
  if d.opWanted = d.getF fCLK_OP_CURRENT [] ∨ d.clocks.change.isSome then d else d.scheduleOp d.opWanted at_

/-- A loop moves CLK_OP.LOOP; the change takes effect 32,000 tc later (R305, R306). -/
def Dev.setLoop (d : Dev) (v : Nat) : Dev :=
  let d1 := d.setF fCLK_OP_LOOP [] v
  (if d1.flag fCLK_CTL_THROTTLE_EVENT [] then d1.fire 22 v else d1).followOp (d.sched.tc + 32000)

/-- SET_OPERATING_POINT (R294). -/
def execSetOperatingPoint (h : Hdr) (op flags : Byte) (atTc : Word) (s : State) : Host.Outcome State Fault Refusal :=
  s.upd fun _ d => d.command 0x20 h fun o d =>
    let now := bit flags.toNat 0
    if op.toNat > 4 ∨ flags.toNat ≥ 2 ∨ (!now ∧ atTc.toNat < d.sched.tc + 32000) then d.complete o .badParam 0
    else if d.clocks.change.isSome then d.complete o .busy 0
    else
      let t := if now then d.sched.tc + 32000 else atTc.toNat
      ((d.setF fCLK_OP_REQ [] op.toNat).followOp t).complete o .ok 0

/-- An instant of the pending change has come: `lead` tc before it takes effect. -/
def Dev.changeDue (d : Dev) (lead : Nat) : Bool :=
  match d.clocks.change with
  | some c => decide (d.sched.tc + lead ≥ c.time)
  | none => false

def Dev.mapChange (d : Dev) (f : OpChange → OpChange) : Dev := d.mapClocks fun c => { c with change := c.change.map f }

def Dev.railWriteDue (d : Dev) : Bool :=
  d.changeDue 32000 && (match d.clocks.change with | some c => c.faster && !c.written | none => false)

/-- OP_CHANGE_RAIL_WRITE (R295): the new targets, 40 µs ahead of a change to a faster operating point. -/
def execOpChangeRailWrite (s : State) : Host.Outcome State Fault Refusal :=
  s.upd fun _ d =>
    match d.clocks.change with
    | some x =>
      if d.railWriteDue then
        ((d.mapChange fun y => { y with written := true }).mapClocks fun c => { c with railOp := x.target }).setRails
      else d
    | none => d

def Dev.confirmDue (d : Dev) : Bool :=
  d.changeDue 800 && (match d.clocks.change with | some c => c.faster && !c.unconfirmed.isEmpty | none => false)

/-- OP_CHANGE_CONFIRM_DEADLINE (R295): a regulator has not confirmed, so the change is cancelled. -/
def execOpChangeConfirmDeadline (s : State) : Host.Outcome State Fault Refusal :=
  s.upd fun _ d =>
    match d.clocks.change with
    | some x =>
      if d.confirmDue then
        let d1 := (d.setF fCLK_OP_FAIL [] 1).setF fCLK_OP_PENDING [] 0
        let d2 := d1.mapClocks fun c => { c with change := none, railOp := d.getF fCLK_OP_CURRENT [] }
        let d3 := (if x.written then d2.setRails else d2).fire 25 x.target
        -- REQ or LOOP has changed meanwhile
        if d3.opWanted = x.target then d3 else d3.followOp (d3.sched.tc + 32000)
      else d
    | none => d

def Dev.relockFreezeDue (d : Dev) : Bool :=
  match d.clocks.change with
  | some x => d.run.inRun && !x.frozen && x.unconfirmed.isEmpty && decide (d.time + 24 * d.periodLen ≥ x.time * 9)
  | none => false

/-- RELOCK_FREEZE (R296): before sc 0 the freeze is at sc 0. -/
def execRelockFreeze (s : State) : Host.Outcome State Fault Refusal :=
  s.upd fun _ d =>
    if d.relockFreezeDue then
      (d.mapChange fun x => { x with frozen := true }).startHold 8 (if d.sched.begun then d.sched.sc + 24 else 0)
    else d

def Dev.switchDue (d : Dev) : Bool :=
  d.changeDue 0 && (!d.run.inRun || d.sched.hold.held) &&
    (match d.clocks.change with | some x => x.unconfirmed.isEmpty && (!x.faster || x.written) | none => false)

/-- DIVIDER_SWITCH (R296): the dividers of all four yards switch; the meshes settle within 256 tc, and the rails of a slower
operating point go down 1 µs later (R295). A change that REQ or LOOP asked for meanwhile starts now (R294). -/
def execDividerSwitch (s : State) : Host.Outcome State Fault Refusal :=
  s.upd fun _ d =>
    match d.clocks.change with
    | some x =>
      if d.switchDue then
        let d1 := [0, 1, 2, 3].foldl (fun d y => d.setF fCLK_PLL_DIVIDER [y] (opDivider x.target)) d
        let d2 := ((d1.setF fCLK_OP_CURRENT [] x.target).setF fCLK_OP_PENDING [] 0).setWord .rCLK_OP_AT []
          (BitVec.ofNat 64 d.sched.tc)
        let d3 := (d2.count .rCLK_OPCHG_CNT [] 1).mapClocks fun c =>
          { c with change := none, settleAt := some (d.sched.ref + 256 * 9),
                   lowerAt := if x.faster then c.lowerAt else some (d.sched.ref + 800 * 9) }
        let d4 := if d3.flag fCLK_CTL_OPCHG_EVENT [] then d3.fire 23 x.target else d3
        d4.followOp (d4.sched.tc + 32000)
      else d
    | none => d

def Dev.settleDue (d : Dev) : Bool := match d.clocks.settleAt with | some t => decide (d.sched.ref ≥ t) | none => false

/-- CLOCK_SETTLED (R296): the relock is no longer in progress, so R35 can release. -/
def execClockSettled (s : State) : Host.Outcome State Fault Refusal :=
  s.upd fun _ d => if d.settleDue then d.mapClocks fun c => { c with settleAt := none } else d

def Dev.lowerDue (d : Dev) : Bool := match d.clocks.lowerAt with | some t => decide (d.sched.ref ≥ t) | none => false

/-- RAIL_LOWERING (R295). -/
def execRailLowering (s : State) : Host.Outcome State Fault Refusal :=
  s.upd fun _ d =>
    if d.lowerDue then (d.mapClocks fun c => { c with lowerAt := none, railOp := d.getF fCLK_OP_CURRENT [] }).setRails else d

/-! ## PLLs -/

/-- A yard's PLL starts to relock: an attempt lasts 5 µs, after the notice of the freeze in a run (R297). -/
def Dev.startRelock (d : Dev) (y : Nat) : Dev :=
  let notice := if d.run.inRun then 24 * d.periodLen else 0
  ((d.setF fCLK_PLL_LOCKED [y] 0).count .rCLK_RELOCK_CNT [] 1).mapClocks fun c =>
    { c with relock := Tab.insert c.relock y (1, d.sched.ref + notice + 4000 * 9) }

/-- PLL_DRIFT (R297). -/
def execPllDrift (yard : Fin 4) (s : State) : Host.Outcome State Fault Refusal :=
  s.upd fun _ d =>
    if !d.up || !d.flag fCLK_PLL_LOCKED [yard.val] then d
    else
      let d1 := d.startRelock yard.val
      if d.run.inRun then d1.startHold 8 (if d.sched.begun then d.sched.sc + 24 else 0) else d1

/-- PLL_RELOCKED (R297). -/
def execPllRelocked (yard : Fin 4) (s : State) : Host.Outcome State Fault Refusal :=
  s.upd fun _ d =>
    if !d.up || d.flag fCLK_PLL_LOCKED [yard.val] then d
    else (d.setF fCLK_PLL_LOCKED [yard.val] 1).mapClocks fun c => { c with relock := Tab.erase c.relock yard.val }

/-- Yards whose present attempt has lasted 5 µs. -/
def Dev.relockLate (d : Dev) : List Nat := (d.clocks.relock.filter fun e => decide (d.sched.ref ≥ e.2.2)).map (·.1)

/-- PLL_RELOCK_TIMEOUT (R297): after three attempts CLK_PLL.FAIL is set and PLL_FAIL stops the run. -/
def execPllRelockTimeout (yard : Fin 4) (s : State) : Host.Outcome State Fault Refusal :=
  s.upd fun _ d =>
    let y := yard.val
    match Tab.find d.clocks.relock y with
    | some (n, t) =>
      if d.sched.ref < t then d
      else if n < 3 then d.mapClocks fun c => { c with relock := Tab.insert c.relock y (n + 1, d.sched.ref + 4000 * 9) }
      else
        let d1 := (d.setF fCLK_PLL_FAIL [y] 1).mapClocks fun c => { c with relock := Tab.erase c.relock y }
        d1.stopFault { code := 0x0B, detail := y, yard := y }
    | none => d

/-- PLL_LOSS_OF_LOCK (R298): an abrupt loss; `quad` is the quadrant of the first region to fail. -/
def execPllLossOfLock (yard quad : Fin 4) (s : State) : Host.Outcome State Fault Refusal :=
  s.upd fun _ d =>
    if !d.up then d
    else (d.startRelock yard.val).violation 5 yard.val 3 (4 * yard.val + quad.val)

/-! ## Power -/

/-- Mean of the samples, rounded down; 0 of none. -/
def mean (l : List Nat) : Nat := if l.isEmpty then 0 else l.foldl (· + ·) 0 / l.length

/-- The limit in force (R304). -/
def Dev.powerLimit (d : Dev) : Nat := min (d.getF fCLK_PL_LIMIT []) (d.getF fCLK_PL_BOARD_CAP [])
def Dev.measured (d : Dev) : Nat := d.getF fCLK_PL_MEASURED []
def Dev.loopOff (d : Dev) : Bool := d.flag fCLK_PL_CTL_LOOP_OFF []

/-- Whether the loop slows the part: CLK_THROTTLE_MS counts it (R308). -/
def Dev.throttling (d : Dev) : Bool := d.clocks.powerSince.isSome || decide (d.getF fCLK_OP_LOOP [] > d.getF fCLK_OP_REQ [])

/-- Count 100 µs of throttling, a ms at a time. -/
def Dev.countThrottle (d : Dev) : Dev :=
  if !d.throttling then d
  else if d.clocks.throttled ≥ 9 then (d.mapClocks fun c => { c with throttled := 0 }).count .rCLK_THROTTLE_MS [] 1
  else d.mapClocks fun c => { c with throttled := c.throttled + 1 }

/-- MEASURED exceeds the limit in force, and the loop may act (R305, Table 15-12). -/
def Dev.overLimit (d : Dev) : Bool := decide (d.measured > d.powerLimit) && !d.loopOff

/-- MEASURED is at or below 0.9 of the limit, with no thermal request in force (R305). -/
def Dev.wellBelow (d : Dev) : Bool := decide (10 * d.measured ≤ 9 * d.powerLimit) && !d.flag fCLK_THERM_THROTTLING []

/-- Since when the part has been over the limit, and well below it: kept whenever what they rest on may have changed. -/
def Dev.watchPower (d : Dev) : Dev :=
  let keep (on : Bool) (t : Option Nat) : Option Nat := if on then some (t.getD d.sched.ref) else none
  d.mapClocks fun c => { c with powerSince := keep d.overLimit c.powerSince, lowSince := keep d.wellBelow c.lowSince }

/-- The core rails are on: from boot stage 7 (Table 17-2). -/
def Dev.railsOn (d : Dev) : Bool := d.up || (d.run = .boot && decide (d.boot.stage ≥ 7))

/-- POWER_SAMPLE (R304, R305): the rail currents, in A, and the estimate for every other rail, in W. -/
def execPowerSample (amps : BitVec 256) (other : BitVec 16) (s : State) : Host.Outcome State Fault Refusal :=
  s.upd fun _ d =>
    if !d.railsOn then d
    else
      let i (r : Nat) : Nat := amps.toNat / 2 ^ (16 * r) % 65536
      let mw := (List.range 16).foldl (fun m r => m + d.getF fCLK_AVS_VOUT [r] * i r) 0
      let w := mw / 1000 + other.toNat
      let d1 := (List.range 16).foldl (fun d r => d.setF fCLK_AVS_IOUT [r] (i r)) d
      let samples := (w :: d.clocks.samples).take (10 * d.getF fCLK_PL_CTL_TAU_MS [])
      let d2 := (d1.setF fCLK_PL_MEASURED [] (min 65535 (mean samples))).mapClocks fun c => { c with samples := samples }
      if d.up then (d2.sample 0x0B 0 (w : Int)).watchPower.countThrottle else d2

/-- SET_POWER_LIMIT (R304). -/
def execSetPowerLimit (h : Hdr) (limit : BitVec 16) (flags : Byte) (s : State) : Host.Outcome State Fault Refusal :=
  s.upd fun _ d => d.command 0x21 h fun o d =>
    let board := bit flags.toNat 0
    if limit.toNat < 500 ∨ limit.toNat > 3000 ∨ flags.toNat ≥ 2 ∨ (board ∧ h.src ≠ .sideband) then d.complete o .badParam 0
    else
      (if board then d.setF fCLK_PL_BOARD_CAP [] limit.toNat else d.setF fCLK_PL_LIMIT [] limit.toNat).watchPower.complete o .ok 0

def Dev.powerStretchDue (d : Dev) : Bool :=
  d.up && d.overLimit && !d.sched.hold.held && d.clocks.inSc == d.inSc && d.clocks.powerGroup ≠ d.windowNow / 64

/-- POWER_STRETCH (R305): one period in every 64 sc, skipped where the region stretched in the 31 sc before. -/
def execPowerStretch (s : State) : Host.Outcome State Fault Refusal :=
  s.upd fun _ d =>
    if !d.powerStretchDue then d
    else
      ((List.range 16).foldl (fun d r => if d.justStretched r then d else d.stretch r) d).mapClocks fun c =>
        { c with powerGroup := d.windowNow / 64 }

/-- At least `ms` milliseconds have passed since an instant (R42). -/
def Dev.since (d : Dev) (t : Option Nat) (ms : Nat) : Bool :=
  match t with
  | some t => decide (d.sched.ref ≥ t + ms * 800000 * 9)
  | none => false

/-- No change is pending, so that a loop may start one. -/
def Dev.loopFree (d : Dev) : Bool := d.clocks.change.isNone

def Dev.stepDownDue (d : Dev) : Bool :=
  d.overLimit && d.since d.clocks.powerSince 1 && (d.clocks.lastDown.isNone || d.since d.clocks.lastDown 10) && d.loopFree &&
    decide (d.getF fCLK_OP_LOOP [] < 4)

/-- POWER_LIMIT_STEP_DOWN (R305). -/
def execPowerLimitStepDown (s : State) : Host.Outcome State Fault Refusal :=
  s.upd fun _ d =>
    if d.stepDownDue then (d.mapClocks fun c => { c with lastDown := some d.sched.ref }).setLoop (d.getF fCLK_OP_LOOP [] + 1) else d

def Dev.stepUpDue (d : Dev) : Bool :=
  d.since d.clocks.lowSince 100 && d.loopFree && !d.flag fCLK_THERM_THROTTLING [] &&
    decide (d.getF fCLK_OP_LOOP [] > d.getF fCLK_OP_REQ []) && !d.loopOff

/-- POWER_LIMIT_STEP_UP (R305). -/
def execPowerLimitStepUp (s : State) : Host.Outcome State Fault Refusal :=
  s.upd fun _ d =>
    if d.stepUpDue then (d.mapClocks fun c => { c with lowSince := some d.sched.ref }).setLoop (d.getF fCLK_OP_LOOP [] - 1) else d

/-- With LOOP_OFF, LOOP rises to REQ unless the thermal loop holds it (Table 15-12). -/
def Dev.loopOffRise (d : Dev) : Dev :=
  if d.loopOff && !d.flag fCLK_THERM_THROTTLING [] && decide (d.getF fCLK_OP_LOOP [] > d.getF fCLK_OP_REQ []) then
    d.setLoop (d.getF fCLK_OP_REQ [])
  else d

/-! ## Temperature -/

def Dev.junction (d : Dev) : Int := signed 8 (d.getF fCLK_THERM_TJ_MAX [])

/-- Too hot: the junction above THROTTLE_C, or a stack or module above 95 °C (R224, R306). -/
def Dev.hot (d : Dev) : Bool := decide (d.junction > (d.getF fCLK_THERM_THROTTLE_C [] : Int)) || d.flag fCLK_THERM_MEM_HOT []

/-- Cool again, 5 °C below both thresholds. -/
def Dev.cool (d : Dev) : Bool :=
  decide (d.junction ≤ (d.getF fCLK_THERM_THROTTLE_C [] : Int) - 5) &&
    (List.range 20).all fun u => decide (signed 8 (d.getF fMEM_STAT_TEMP [u]) ≤ 90)

def Dev.thermalDue (d : Dev) : Bool :=
  d.up && (if d.hot then (d.clocks.lastThermal.isNone || d.since d.clocks.lastThermal 10) else
    d.flag fCLK_THERM_THROTTLING [] && d.cool)

/-- THERMAL_THROTTLE_STEP (R306): every 10 ms while too hot; cool again, the request is released. -/
def execThermalThrottleStep (s : State) : Host.Outcome State Fault Refusal :=
  s.upd fun _ d =>
    if !d.thermalDue then d
    else if d.hot then
      let d1 := (d.setF fCLK_THERM_THROTTLING [] 1).mapClocks fun c => { c with lastThermal := some d.sched.ref, lowSince := none }
      if d1.getF fCLK_OP_LOOP [] < 4 && d1.loopFree then d1.setLoop (d1.getF fCLK_OP_LOOP [] + 1) else d1
    else ((d.setF fCLK_THERM_THROTTLING [] 0).mapClocks fun c => { c with lastThermal := none }).watchPower.loopOffRise

end Sys2Proof.Machine
end

