-- ==== Sys2Proof/Machine/Fabric.lean ====
section
/-! DEFINITION. The fabric (14): port training (R267 to R270), frames and replay (R271 to R273), landing (R277), membership
and resets (R279 to R281), fabric nodes (R282, R283) and time synchronisation (R284 to R286). -/
namespace Sys2Proof.Machine

def Dev.mapFab (d : Dev) (f : Fabric → Fabric) : Dev := { d with fab := f d.fab }

/-! ## Time states and the upstream (R284, R286) -/

def Dev.timeState (d : Dev) : Nat := d.getF fFAB_TIME_STAT_STATE []

/-- Change the time state; leaving LOCKED is a trigger source (R286, R362). -/
def Dev.setTimeState (d : Dev) (s : Nat) : Dev :=
  let d1 := d.setF fFAB_TIME_STAT_STATE [] s
  if d.timeState = 2 && s ≠ 2 && d.flag fFAB_CTL_TIME_EVENT [] then d1.fire 18 (d.getF fFAB_TIME_STAT_UPPORT []) else d1

/-- A member of a system with a time source, and not that source. -/
def Dev.follows (d : Dev) : Bool := d.epoch ≠ 0 && d.fab.source.isSome && d.fab.source ≠ some d.devId

/-- The upstream port: the first UP port that the entry of the time source lists; 31 for none (R284). -/
def Dev.upstream (d : Dev) : Nat :=
  match d.fab.source with
  | some s => if d.follows then ((d.routeList s).find? d.linkUp).getD 31 else 31
  | none => 31

/-- No correction is slewed in any more. -/
def Fabric.still (f : Fabric) : Fabric := { f with slew := 0, rate := 0 }

/-- The states FREE and SOURCE, in which SCH_TC runs free, and a member whose upstream is another than before (R284, R286; log entry
85). -/
def Dev.followUpstream (d : Dev) (renamed : Bool) : Dev :=
  let old := d.getF fFAB_TIME_STAT_UPPORT []
  let u := d.upstream
  let d1 := d.setF fFAB_TIME_STAT_UPPORT [] u
  if d.epoch = 0 ∨ d.fab.source.isNone then
    (((d1.setTimeState 0).setF fFAB_TIME_STAT_HOPS [] 0).setF fFAB_TIME_STAT_BOUND [] 0).mapFab Fabric.still
  else if !d.follows then
    (((d1.setTimeState 4).setF fFAB_TIME_STAT_HOPS [] 0).setF fFAB_TIME_STAT_BOUND [] 10).mapFab Fabric.still
  else if renamed ∨ (u ≠ old ∧ u ≠ 31) then
    (if renamed || d.timeState ≠ 3 then d1.setTimeState 1 else d1).mapFab fun f =>
      { f with corrected := false, good := 0, slew := 0, lastExch := d.sched.ref }
  else d1

/-! ## Ports going down -/

/-- Another UP port with the same PEER that the packet's route entry lists (R273). -/
def Dev.otherPort (d : Dev) (p : Nat) (k : FabPacket) : Option Nat :=
  (d.routeList k.dst).find? fun q => q ≠ p && d.linkUp q && d.getF fFAB_PORT_STAT_PEER [q] = d.getF fFAB_PORT_STAT_PEER [p]

/-- A port's sender with nothing on the line: what the peer has not acknowledged is to be framed anew. -/
def FabPort.unframed (x : FabPort) : FabPort :=
  { x with replay := [], packets := x.packets.map fun k => { k with framed := k.acked } }

/-- A packet of another port joins a sender, ahead of the packets of its flow that have still to be framed (R273). -/
def FabPort.adopt (x : FabPort) (k : FabPacket) (no : Nat) : FabPort :=
  let later (e : FabPacket) : Bool := k.sameFlow e && e.framed = 0 && e.acked = 0
  { x with packets := x.packets.takeWhile (fun e => !later e) ++ { k with no := no } :: x.packets.dropWhile fun e => !later e }

/-- What had not been acknowledged on a port that is DOWN goes out on another port, in order, or waits for this one (R273). -/
def Dev.resendElsewhere (d : Dev) (p : Nat) : Dev :=
  let x := (d.fport p).unframed
  let moves := x.packets.filterMap fun k => (d.otherPort p k).map fun q => (q, k)
  let d1 := d.setFport p { x with packets := x.packets.filter fun k => (d.otherPort p k).isNone }
  -- the last packet first, as each goes ahead of those of its flow
  moves.foldr (fun m d =>
    ((d.setFport m.1 ((d.fport m.1).adopt m.2 d.fab.next)).mapFab fun f => { f with next := f.next + 1 }).pushLink m.1) d1

/-- A port is no longer UP (R273): the recorder's trigger, the frames, the upstream. -/
def Dev.leaveUp (d : Dev) (p state : Nat) : Dev :=
  let was := d.linkUp p
  let d1 := d.setF fFAB_PORT_STAT_STATE [p] state
  if was then
    let d2 := if d1.flag fFAB_CTL_DOWN_EVENT [] then d1.fire 17 p else d1
    (d2.resendElsewhere p).followUpstream false
  else d1

/-- The domain of a port's SerDes group is on, and the part record enables the port (R269, R301). -/
def Dev.portEnabled (d : Dev) (p : Nat) : Bool := bit d.cfg.ports p && d.domainOn (8 * (p / 6) + 7)

/-- A port fails and retrains at once by itself (R269, R273). -/
def Dev.failPort (d : Dev) (p : Nat) : Dev :=
  if d.getF fFAB_PORT_STAT_STATE [p] = 2 then d.leaveUp p 1 else d

/-- PORT_DOWN (R273). -/
def execPortDown (port : Fin 24) (s : State) : Host.Outcome State Fault Refusal :=
  s.upd fun _ d => if d.up then d.failPort port.val else d

/-! ## Training -/

/-- A port starts to train (R269). -/
def Dev.trainPort (d : Dev) (p : Nat) (wide : Bool) : Dev :=
  let d1 := d.setFport p { d.fport p with down := false, wide := wide }
  d1.leaveUp p (if d1.portEnabled p then 1 else 0)

/-- FABRIC_TRAIN and its OP 1 (R270). -/
def Dev.fabricTrain (d : Dev) (o : Owed) (ports op width : Nat) : Dev :=
  let named := (List.range 24).filter fun p => bit ports p
  let running := d.run = .running ∨ d.run = .held
  if ports = 0 ∨ ports ≥ 2 ^ 24 ∨ op > 1 ∨ width > 1 then d.complete o .badParam 0
  else if running ∧ (op = 1 ∨ named.any fun p => d.getF fFAB_PORT_STAT_STATE [p] ≠ 0) then d.complete o .busy 0
  else if op = 1 then
    (named.foldl (fun d p => (d.leaveUp p 0).setFport p { (d.leaveUp p 0).fport p with down := true }) d).complete o .ok 0
  else
    let d1 := named.foldl (fun d p => d.trainPort p (width = 1)) d
    let left := named.filter fun p => d1.getF fFAB_PORT_STAT_STATE [p] = 1
    d1.begin o (.train (left.foldl (fun m p => m + 2 ^ p) 0))

/-- FABRIC_TRAIN (R270). -/
def execFabricTrain (h : Hdr) (ports : BitVec 32) (op width : Byte) (s : State) : Host.Outcome State Fault Refusal :=
  s.upd fun _ d => d.command 0x70 h fun o d => d.fabricTrain o ports.toNat op.toNat width.toNat

/-- FABRIC_TAKE_DOWN: FABRIC_TRAIN with OP 1 (R270). -/
def execFabricTakeDown (h : Hdr) (ports : BitVec 32) (width : Byte) (s : State) : Host.Outcome State Fault Refusal :=
  s.upd fun _ d => d.command 0x70 h fun o d => d.fabricTrain o ports.toNat 1 width.toNat

/-- Four lanes of a group are usable and the training permits them (R267). -/
def halfPort (lanes : Nat) : Bool := lanes % 16 = 15 || lanes / 16 % 16 = 15

/-- PORT_TRAINING_COMPLETE (R267, R269): which lanes trained, reversal and polarity, flight time, the peer, the eye, and the lane
asymmetry in ps (R285). Both ends number their frames from 0 (log entry 83). -/
def execPortTrainingComplete (port : Fin 24) (lanes polarity : Byte) (reversed : Bool) (flight : BitVec 16) (peer : BitVec 10)
    (margin : Byte) (asym : BitVec 16) (s : State) : Host.Outcome State Fault Refusal :=
  s.upd fun _ d =>
    let p := port.val
    if !d.up || d.getF fFAB_PORT_STAT_STATE [p] ≠ 1 then d
    else
      let x := d.fport p
      let full := lanes.toNat = 255
      let up := full || (!x.wide && halfPort lanes.toNat)
      let d1 := d.setWord .rFAB_PORT_STAT [p] (BitVec.ofNat 64
        (peer.toNat + flight.toNat * 2 ^ 16 + polarity.toNat * 2 ^ 40 + lanes.toNat * 2 ^ 52 + b2n reversed * 2 ^ 60 +
          b2n (up && !full) * 2 ^ 61 + (if up then 2 else 0) * 2 ^ 62))
      let d2 := (d1.setF fFAB_PORT_EQ_MARGIN [p] margin.toNat).setFport p
        { x.unframed with txSeq := 0, rxSeq := 0, lane := 3, blocked := 0, freeAt := d.sched.ref, timeOut := none, timeIn := none
                          asym := signed 16 asym.toNat }
      let d3 := d2.pushLink p
      let d4 := match d3.long with
        | some l => (match l.work with
          | .train m => { d3 with long := some { l with work := .train (putBits m p p 0) } }
          | .load _ _ _ | .verify _ | .restore _ | .commit => d3)
        | none => d3
      d4.followUpstream false

/-- LINK_STATUS (R270). -/
def execLinkStatus (h : Hdr) (port : Byte) (s : State) : Host.Outcome State Fault Refusal :=
  s.upd fun _ d => d.command 0x71 h fun o d =>
    let p := port.toNat
    if p > 23 then d.complete o .badParam 0
    else d.complete o .ok ((d.word .rFAB_PORT_STAT [p]).toNat + (d.word .rFAB_PORT_EQ [p]).toNat * 2 ^ 64)

/-! ## Frames -/

/-- What an incoming packet does, in the yard of its port (R274, R276); a TIME packet ends there, and the port keeps when it came
(R285). -/
def Dev.takePacket (d : Dev) (p : Nat) (k : FabPacket) : Dev :=
  if k.type = 0 ∨ k.type > 4 ∨ nth 0 k.header 7 ≥ 64 then d.dropPacket p
  else if k.type = 3 then d.setFport p { d.fport p with timeIn := some d.time }
  else
    let e := fabEnd p
    d.route e.1 e.2 k

def packetOf (k : FabPkt) : FabPacket :=
  { lane := k.lane.val, header := leBytes 32 k.header.toNat, payload := k.payload.map BitVec.toNat }

/-- Bytes of each packet that a frame carries, counted as acknowledged; packets acknowledged whole are done with. -/
def FabFrame.settle (f : FabFrame) (ks : List FabPacket) : List FabPacket :=
  (ks.map fun k =>
    match f.parts.find? fun q => q.1 = k.no with
    | some (_, off, n) => { k with acked := max k.acked (off + n) }
    | none => k).filter fun k => decide (k.acked < k.size)

/-- Frames up to an acknowledged one leave the replay buffer (R271). -/
def FabPort.acknowledge (x : FabPort) (ack : Nat) : FabPort :=
  match x.replay.findIdx? fun f => f.seq = ack with
  | none => x
  | some i =>
    { x with replay := x.replay.drop (i + 1), packets := (x.replay.take (i + 1)).foldl (fun ks f => f.settle ks) x.packets }

/-- A port that sent no frame sends its acknowledgement alone (log entry 83). -/
def Dev.sendAck (d : Dev) (p sent : Nat) : Dev :=
  let x := d.fport p
  if x.txSeq = sent then d.emit (.acknowledge p x.ack d.withheld) else d

/-- FRAME_RECEIVED (R268, R271): a CRC failure or a gap asks for a replay; a frame already had is discarded. `withheld` are the lanes
whose credits the peer withholds (R275). -/
def execFrameReceived (port : Fin 24) (crcOk : Bool) (seq ack : BitVec 12) (withheld : BitVec 4) (fec : Byte) (packets : List FabPkt)
    (s : State) : Host.Outcome State Fault Refusal :=
  s.upd fun _ d =>
    let p := port.val
    if !d.up || !d.linkUp p then d
    else
      let d1 := d.count .rFAB_PCNT [p, 4] fec.toNat
      let x := d1.fport p
      if !crcOk then (d1.count .rFAB_PCNT [p, 3] 1).emit (.replayRequest p x.rxSeq)
      else
        let d2 := d1.setFport p { x.acknowledge ack.toNat with blocked := withheld.toNat }
        let ahead := (seq.toNat + 4096 - x.rxSeq) % 4096
        if ahead = 0 then
          let d3 := (d2.setFport p { d2.fport p with rxSeq := (x.rxSeq + 1) % 4096 }).count .rFAB_PCNT [p, 1] 1
          ((packets.foldl (fun d k => d.takePacket p (packetOf k)) d3).pushLink p).sendAck p x.txSeq
        else if ahead < 2048 then (d2.emit (.replayRequest p x.rxSeq)).pushLink p
        else d2.pushLink p

/-- A frame is over the budget from its first replay beyond it: counted then, and its packets are marked RETRY (R272). -/
def Dev.overBudget (d : Dev) (p : Nat) : Dev :=
  let d1 := ((d.count .rFAB_PCNT [p, 5] 1).mapFab fun f => { f with retried := true }).noteFlags
  if d1.flag fFAB_CTL_RETRY_EVENT [] then d1.fire 20 p else d1

/-- A packet marked RETRY (Table 14-3, R272). -/
def FabPacket.markRetry (k : FabPacket) : FabPacket := { k with header := k.header.set 1 (Nat.lor (nth 0 k.header 1) 4) }

/-- A frame with the bytes of its packets as they are now. -/
def FabFrame.refresh (f : FabFrame) (ks : List FabPacket) : FabFrame :=
  let bs := f.parts.flatMap fun q =>
    match ks.find? fun k => k.no = q.1 with
    | some k => (k.bytes.drop q.2.1).take q.2.2
    | none => []
  { f with bytes := bs ++ f.bytes.drop bs.length }

/-- REPLAY_REQUEST (R271, R273): from the frame that failed on, in order; after 32 replays of it that failed too the port goes
DOWN. -/
def execReplayRequest (port : Fin 24) (seq : BitVec 12) (s : State) : Host.Outcome State Fault Refusal :=
  s.upd fun _ d =>
    let p := port.val
    let x := d.fport p
    if !d.up || !d.linkUp p then d
    else
      match x.replay.dropWhile fun f => f.seq ≠ seq.toNat with
      | [] => d
      | f :: later =>
        let fails := if f.replays = 0 then 0 else f.fails + 1
        if fails ≥ 32 then d.failPort p
        else
          let budget := d.getF fFAB_CTL_RETRY_BUDGET []
          let again := ({ f with fails := fails } :: later).map fun (g : FabFrame) => { g with replays := g.replays + 1 }
          let late := again.filter fun g => g.replays > budget
          let ks := x.packets.map fun k => if late.any fun g => g.parts.any fun q => q.1 = k.no then k.markRetry else k
          let sent := again.map fun g => g.refresh ks
          let x' := { x with replay := x.replay.takeWhile (fun g => g.seq ≠ seq.toNat) ++ sent, packets := ks
                             freeAt := max x.freeAt d.sched.ref + sent.length * d.frameTime p }
          let d1 := (d.setFport p x').count .rFAB_PCNT [p, 2] sent.length
          sent.foldl (fun d g =>
            (if g.replays = budget + 1 then d.overBudget p else d).emit (.frame p g.lane g.seq x.ack d.withheld g.bytes)) d1

/-! ## Landing -/

/-- The n-th packet of a type among those that have arrived, if no earlier packet of its flow has still to land (R276). -/
def Dev.arrivedPacket (d : Dev) (type n : Nat) : Option FabPacket :=
  match (d.fab.arrived.filter fun k => k.type = type)[n]? with
  | none => none
  | some k =>
    match d.fab.arrived.find? k.sameFlow with
    | some first => if first = k then some k else none
    | none => none

def Dev.takeArrived (d : Dev) (k : FabPacket) : Dev := d.mapFab fun f => { f with arrived := f.arrived.erase k }

/-- A packet for this device is discarded: another epoch, or no image that uses the fabric (R277). -/
def Dev.refusesPacket (d : Dev) (k : FabPacket) : Bool := k.epoch ≠ d.epoch || !d.multi

/-- An item of a RETRY packet that is late holds with flag RETRY (R272). -/
def Dev.noteRetry (d : Dev) (k : FabPacket) : Dev := if bit k.flags 2 then (d.mapFab fun f => { f with retried := true }).noteFlags else d

/-- No packet reaches a drain queue (R198, R277). -/
def namesQueue (a : Nat) : Bool := match locate a with | .onchip _ space _ _ => space = 4 | _ => false

/-- Bytes land at an address: discarded from a fenced position (R200), a landing fault where the address breaks R198, R209,
R218 or R241 (R277); else whether they are in place. -/
def Dev.landAt (d : Dev) (a : Nat) (bs : List Nat) : Dev × Bool :=
  match (if namesQueue a then .bounds else d.checkAccess a bs.length) with
  | .good => (d.writes a bs, true)
  | .fenced y => (d.count .rOCM_FENCED_DROP [y] 1, true)
  | .bounds => ((d.count .rFAB_LAND_CNT [] 1).boundsFault { code := 9, detail := 4 } a, false)

/-- WRITE: a WRITE packet for this device lands, or is discarded, and counted so, where R277 says; its bytes count for a RECV
(R248). -/
def execWrite (n : Byte) (s : State) : Host.Outcome State Fault Refusal :=
  s.upd fun _ d =>
    match d.arrivedPacket 1 n.toNat with
    | none => d
    | some k =>
      let d1 := (d.takeArrived k).noteRetry k
      if d1.refusesPacket k then d1.dropPacket 0
      else
        let (d2, ok) := d1.landAt (k.addr % 2 ^ 48) k.payload
        if ok then d2.landBytes k.src k.tag k.payload.length else d2.dropPacket 0

/-! ## Fabric nodes -/

/-- The two records of a fabric node (R282). -/
def findFabNode (fnode : Nat) : List (List Nat) → Option (List Nat × List Nat)
  | r :: c :: t => if nth 0 r 0 = 2 && field r 8 2 = fnode then some (r, c) else findFabNode fnode (c :: t)
  | [_] | [] => none

def Dev.fabRecords (d : Dev) (fnode : Nat) : Option (List Nat × List Nat) := d.sched.image.bind fun im => findFabNode fnode im.trees

def Dev.fabNode (d : Dev) (n : Nat) : FabNode := Tab.get {} d.fab.nodes n
def Dev.setFabNode (d : Dev) (n : Nat) (x : FabNode) : Dev := d.mapFab fun f => { f with nodes := Tab.put {} f.nodes n x }

def inputOf (r : List Nat) (i : Nat) : Nat := field r (16 + 2 * i) 2

/-- A REDUCE packet of one unit leaves a node (R283), on the network from the first fabric endpoint of its yard (log entry 86). -/
def Dev.sendUnit (d : Dev) (y dev fnode k : Nat) (down bf : Bool) (unit : List Nat) : Dev :=
  let flags := b2n down + 2 * b2n bf
  d.route y 56
    { lane := if down then 3 else 2, header := packetHeader 2 flags dev d.devId 1 d.epoch fnode k, payload := unit }

/-- Update unit whose gradient port a node delivers to (Table 14-7, R262). -/
def gradTarget (c : List Nat) : Nat := bits (field c 8 8) 4 0

/-- Units for which a node's delivery has room (R283): a gradient port holds 1 MiB (R170). -/
def Dev.resultRoom (d : Dev) (r c : List Nat) : Nat :=
  if field r 5 1 = 2 then (0x100000 - (Tab.get [] d.gradPort (gradTarget c)).length) / 256 else 16

/-- Deliver result unit `k` of a node as DKIND directs, and send it to each child (R283). -/
def Dev.deliverResult (d : Dev) (fnode : Nat) (r c : List Nat) (unit : List Nat) : Dev :=
  let x := d.fabNode fnode
  let k := x.down
  let y := field r 1 1
  let d1 := d.setFabNode fnode { x with down := k + 1 }
  let w := field c 8 8
  let landed (d : Dev) : Dev := (d.count .rFAB_RED_UNITS [] 1).landBytes d.devId (0x80000000 + fnode) 256
  let d2 :=
    if field r 5 1 = 1 then
      let n := field r 12 4 / 256
      let sp := bits w 42 40
      let a := onchipAddr y sp (if sp = 0 then 0 else bits w 39 32) (bits w 31 0 + 256 * (if n = 0 then 0 else k % n))
      let (e, ok) := d1.landAt a unit
      if ok then landed e else e
    else if field r 5 1 = 2 then
      let u := gradTarget c
      landed { d1 with gradPort := Tab.put [] d1.gradPort u (Tab.get [] d1.gradPort u ++ unit) }
    else d1
  (List.range (field c 1 1)).foldl (fun d i => d.sendUnit y (field c (16 + 2 * i) 2 % 1024) fnode k true (field r 4 1 = 1) unit) d2

/-- A REDUCE packet's payload as units of 256 bytes. -/
def unitsOf (bs : List Nat) : List (List Nat) := (List.range (bs.length / 256)).map fun i => (bs.drop (256 * i)).take 256

/-- An arrived packet of which the first `n` units have been taken: the rest waits, as the lane's credits are withheld (R273, R283). -/
def Dev.takeUnits (d : Dev) (k : FabPacket) (n : Nat) : Dev :=
  d.mapFab fun f =>
    { f with arrived :=
        if k.payload.length ≤ 256 * n then f.arrived.erase k
        else f.arrived.map fun e => if e = k then { e with payload := e.payload.drop (256 * n) } else e }

/-- REDUCE: an up-packet reaches an input of a fabric node, which queues up to 256 units; a down-packet delivers result units (R283).
A packet that no node or no input of this device expects waits (log entry 86). -/
def execReduce (n : Byte) (s : State) : Host.Outcome State Fault Refusal :=
  s.upd fun _ d =>
    match d.arrivedPacket 2 n.toNat with
    | none => d
    | some k =>
      let d1 := d.noteRetry k
      if d1.refusesPacket k then (d1.takeArrived k).dropPacket 0
      else
        match d1.fabRecords k.flow with
        | none => d1
        | some (r, c) =>
          if bit k.flags 0 then
            let m := d1.resultRoom r c
            ((unitsOf k.payload).take m).foldl (fun d u => d.deliverResult k.flow r c u) (d1.takeUnits k m)
          else
            match (List.range (field r 6 1)).find? fun i => !bit (inputOf r i) 15 && inputOf r i % 1024 = k.src with
            | none => d1
            | some i =>
              let x := d1.fabNode k.flow
              let q := Tab.get [] x.inputs i
              let m := 256 - q.length
              (d1.takeUnits k m).setFabNode k.flow { x with inputs := Tab.put [] x.inputs i (q ++ (unitsOf k.payload).take m) }

/-- The adder queue a LOCAL input comes from (R283). -/
def localKey (r : List Nat) : Nat := 65536 * field r 1 1 + 256 * field r 2 1 + field r 3 1

/-- The next unit of an input, if there is one; a byte a flit did not enable is a free value. -/
def Dev.inputUnit (d : Dev) (fnode : Nat) (r : List Nat) (i : Nat) : Option (List Nat) :=
  if bit (inputOf r i) 15 then
    let q := Tab.get {} d.nodes (localKey r)
    match q.left, q.right with
    | (_, b) :: _, _ | [], (_, b) :: _ => some (b.map fun o => o.getD (Config.freeWord d.nonce % 256))
    | [], [] => none
  else (Tab.get [] (d.fabNode fnode).inputs i).head?

/-- The unit leaves its queue. -/
def Dev.popInput (d : Dev) (fnode : Nat) (r : List Nat) (i : Nat) : Dev :=
  if bit (inputOf r i) 15 then
    let q := Tab.get {} d.nodes (localKey r)
    let q' : AddNode := match q.left with
      | _ :: t => { q with left := t }
      | [] => { q with right := q.right.drop 1 }
    { d with nodes := Tab.put {} d.nodes (localKey r) q' }
  else
    let x := d.fabNode fnode
    d.setFabNode fnode { x with inputs := Tab.put [] x.inputs i ((Tab.get [] x.inputs i).drop 1) }

/-- Elements of a unit as FP32. -/
def unitElems (bf : Bool) (u : List Nat) : List Nat :=
  let w := if bf then 2 else 4
  (List.range (256 / w)).map fun i =>
    let e := leNat ((u.drop (w * i)).take w)
    if bf then widen 1 e else e

/-- The up value: the inputs added from the left, each sum rounded to FP32, narrowed at the end (R67, R283). -/
def foldUnits (bf : Bool) : List (List Nat) → List Nat
  | [] => List.replicate 256 0
  | u :: us =>
    let sum := us.foldl (fun acc v => List.zipWith fadd acc (unitElems bf v)) (unitElems bf u)
    sum.flatMap fun x => if bf then leBytes 2 (narrow 1 .rne false false (val32 x)).1 else leBytes 4 x

/-- Scheduled pairs leave the adder of a router free in a half of the present sc (R261): one pair of BF16 flits needs it for two
phases. -/
def Dev.adderFree (d : Dev) (y n half : Nat) : Bool :=
  d.noReserve ||
    let q := 2 * d.sched.sc + half
    (d.adderNodes y n q).isEmpty &&
      (q = 0 || (d.adderNodes y n (q - 1)).all fun node => match d.treeNode y n node with | some r => nth 0 r 4 ≠ 1 | none => true)

/-- Phases of the adder that a node's unit takes (R261, R283). -/
def adderPhases (r : List Nat) : Nat := (field r 6 1 - 1) * (if field r 4 1 = 1 then 2 else 1)

/-- The fabric nodes' work goes on in the phases of one period that scheduled pairs leave free (R261). -/
def Dev.adderPeriod (d : Dev) : Dev :=
  d.mapFab fun f => { f with adders := (f.adders.map fun a =>
    (a.1, a.2 - (b2n (d.adderFree (a.1 / 48) (a.1 % 48) 0) + b2n (d.adderFree (a.1 / 48) (a.1 % 48) 1)))).filter fun a => a.2 ≠ 0 }

/-- FABRIC_NODE_UNIT (R283): every input of a node has its unit, and the adder is free for it; the up value goes to the parent, or is
the result. The adder is taken for as many free phases as the additions need. -/
def execFabricNodeUnit (fnode : BitVec 16) (s : State) : Host.Outcome State Fault Refusal :=
  s.upd fun _ d =>
    let n := fnode.toNat
    match d.fabRecords n with
    | none => d
    | some (r, c) =>
      let nin := field r 6 1
      let us := (List.range nin).filterMap (d.inputUnit n r)
      let root := field r 10 2 = 0xFFFF
      let key := 48 * field r 1 1 + field r 2 1
      if nin = 0 ∨ us.length < nin ∨ Tab.get 0 d.fab.adders key ≠ 0 ∨ (root ∧ d.resultRoom r c = 0) then d
      else
        let bf : Bool := field r 4 1 = 1
        let d1 := (List.range nin).foldl (fun d i => d.popInput n r i) { d with nonce := d.nonce + 1 }
        let x := d1.fabNode n
        let d2 := (d1.setFabNode n { x with up := x.up + 1 }).mapFab fun f => { f with adders := Tab.put 0 f.adders key (adderPhases r) }
        let v := foldUnits bf us
        if root then d2.deliverResult n r c v else d2.sendUnit (field r 1 1) (field r 10 2 % 1024) n x.up false bf v

/-! ## Membership and resets -/

/-- SET_MEMBERSHIP as one change (R279): FAB_ID, the staged route table, the time source. -/
def Dev.setMembership (d : Dev) (epoch dev tsrc : Nat) : Dev :=
  let d1 := (d.setF fFAB_ID_EPOCH [] epoch).setF fFAB_ID_DEV_ID [] dev
  let d2 := (List.range 1024).foldl (fun d i => d.setWord .rFAB_ROUTE [i] (d.word .rFAB_RSTAGE [i])) d1
  let src := if tsrc = 0xFFFF then none else some tsrc
  ((d2.setF fFAB_TIME_STAT_SOURCE [] (src.getD 0)).mapFab fun f => { f with source := src }).followUpstream true

/-- A TIME or RESET packet for the peer of a port, which carries one unit whose contents the spec does not give. -/
def Dev.sendToPeer (d : Dev) (p type : Nat) : Dev :=
  let peer := d.getF fFAB_PORT_STAT_PEER [p]
  { d with nonce := d.nonce + 256 }.transmit p
    { lane := 3, header := (packetHeader type 0 peer d.devId 1 d.epoch 0 0).set 7 1
      payload := (List.range 256).map fun i => Config.freeWord (d.nonce + i) % 256 }

/-- Send such a packet on every UP port. -/
def Dev.sendToPeers (d : Dev) (type : Nat) : Dev := (List.range 24).foldl (fun d p => if d.linkUp p then d.sendToPeer p type else d) d

/-- The reset is under way here: RESET packets to every PEER, and any run ends as ABORT ends it (R281). -/
def Dev.startReset (d : Dev) : Dev :=
  (d.sendToPeers 4).abort.mapFab fun f => { f with resetting := true, lastReset := some d.sched.ref }

/-- A RESET that arrives within 100 ms of the first is ignored (R281). -/
def Dev.resetQuiet (d : Dev) : Bool :=
  match d.fab.lastReset with
  | some t => decide (d.sched.ref < t + 100 * 800000 * 9)
  | none => false

/-- SET_MEMBERSHIP and its RESET_ALL (R279, R281). -/
def Dev.membership (d : Dev) (o : Owed) (epoch dev tsrc flags : Nat) : Dev :=
  if flags ≥ 2 then d.complete o .badParam 0
  else if bit flags 0 then
    if epoch ≠ d.epoch then d.complete o .badParam 0
    else d.startReset.complete o .ok 0
  else if dev > 1023 ∨ (tsrc > 1023 ∧ tsrc ≠ 0xFFFF) then d.complete o .badParam 0
  else if d.run ≠ .ready ∧ d.run ≠ .loaded ∧ d.run ≠ .faulted then d.complete o .busy 0
  else (d.setMembership epoch dev tsrc).complete o .ok 0

/-- SET_MEMBERSHIP (R279). -/
def execSetMembership (h : Hdr) (epoch : BitVec 32) (devId tsrc : BitVec 16) (flags : Byte) (s : State) :
    Host.Outcome State Fault Refusal :=
  s.upd fun _ d => d.command 0x24 h fun o d => d.membership o epoch.toNat devId.toNat tsrc.toNat flags.toNat

/-- RESET_ALL: SET_MEMBERSHIP with that flag (R281). -/
def execResetAll (h : Hdr) (epoch : BitVec 32) (devId tsrc : BitVec 16) (s : State) : Host.Outcome State Fault Refusal :=
  s.upd fun _ d => d.command 0x24 h fun o d => d.membership o epoch.toNat devId.toNat tsrc.toNat 1

/-- RESET: a RESET packet of this epoch is forwarded once and starts a local reset (R281). -/
def execReset (s : State) : Host.Outcome State Fault Refusal :=
  s.upd fun _ d =>
    match d.fab.arrived.find? fun k => k.type = 4 with
    | none => d
    | some k =>
      let d1 := d.takeArrived k
      if k.epoch ≠ d1.epoch || d1.resetQuiet then d1 else d1.startReset

/-- LOCAL_RESET_COMPLETE (R281): READY with no image; what R281 lists is kept. -/
def execLocalResetComplete (s : State) : Host.Outcome State Fault Refusal :=
  s.upd fun _ d =>
    if !d.fab.resetting then d
    else
      let d1 := (d.mapFab fun f => { f with resetting := false }).abort
      (d1.withSched fun s => { s with image := none }).enter .ready

/-! ## Time exchanges -/

/-- Set SCH_TC, in units of 1/9 tc (R42, R286). -/
def Dev.setTime (d : Dev) (t : Nat) : Dev := d.withSched fun s => { s with tc := t / 9, sub := t % 9, mark := t / 9 / 8192 }

/-- Units of 1/9 tc, of 1,250/9 ps, as ps, and back. -/
def unitsPs (u : Int) : Int := u * 1250 / 9
def offsetUnits (ps : Int) : Int := ps * 9 / 1250

/-- Offset to the peer, own less the peer's, and the path delay, in ps, from the four timestamps in 1/9 tc: a TIME packet left here
at `t1` and reached the peer at `t2`; one left it at `t3` and came at `t4`. Half the lane asymmetry corrects the offset (R285). -/
def exchange (t1 t2 t3 t4 asym : Int) : Int × Int := ((unitsPs (t1 - t2 + (t4 - t3)) - asym) / 2, unitsPs (t4 - t1 - (t3 - t2)) / 2)

/-- The upstream's exchange (R285, R286): the offset is own minus upstream; the first correction of a new upstream is a step
outside a run, every other one is slewed in (log entry 85). -/
def Dev.correct (d : Dev) (ps : Int) : Dev :=
  let u := offsetUnits ps
  let d1 :=
    if !d.fab.corrected && (d.run = .ready || d.run = .loaded || d.run = .faulted) then
      (d.setTime ((d.time : Int) - u).toNat).mapFab Fabric.still
    else d.mapFab fun f => { f with slew := -u }
  d1.mapFab fun f => { f with corrected := true, lastExch := d.sched.ref }

/-- A value held within the 32 bits of a signed field (Table 14-14). -/
def saturate32 (v : Int) : Int := max (-2147483648) (min 2147483647 v)

/-- TIME (R285, R286): a port's exchange is complete. `peerRx` and `peerTx` are the peer's two timestamps, in 1/9 tc, and `hops` its
HOPS; the part's own two are those the port has kept. -/
def execTime (port : Fin 24) (peerRx peerTx : BitVec 80) (hops : Byte) (s : State) : Host.Outcome State Fault Refusal :=
  s.upd fun _ d =>
    let p := port.val
    let x := d.fport p
    match x.timeOut, x.timeIn with
    | some t1, some t4 =>
      if !d.up || !d.linkUp p then d
      else
        let d1 := (d.setFport p { x with timeIn := none }).count .rFAB_TIME_EXCH [] 1
        if !d1.follows || d1.getF fFAB_TIME_STAT_UPPORT [] ≠ p then d1
        else
          let (ps, delay) := exchange t1 peerRx.toNat peerTx.toNat t4 x.asym
          let h := (hops.toNat + 1) % 256
          let d2 := ((d1.setF fFAB_TIME_STAT_HOPS [] h).setF fFAB_TIME_STAT_BOUND [] (5 * (2 + h))).setWord .rFAB_TIME_OFS []
            (BitVec.ofInt 32 (max 0 (min 4294967295 delay)) ++ BitVec.ofInt 32 (saturate32 ps))
          let d3 := d2.sample 0x0C 0 ps
          let good := if ps.natAbs ≤ 2500 * (2 + h) then d3.fab.good + 1 else 0
          let d4 := (d3.correct ps).mapFab fun f => { f with good := good }
          if good ≥ 3 then d4.setTimeState 2
          else if good = 0 ∨ d4.timeState ≠ 2 then d4.setTimeState 1
          else d4
    | _, _ => d

/-- Every 1 ms of TREF each UP port sends its peer a TIME packet (R285). -/
def Dev.timePackets (d : Dev) (before : Nat) : Dev :=
  if before / 7200000 = d.sched.ref / 7200000 then d else d.sendToPeers 3

/-- No exchange with the upstream for 3 ms (Table 14-8). -/
def Dev.holdoverDue (d : Dev) : Bool :=
  (d.timeState = 1 || d.timeState = 2) && decide (d.sched.ref ≥ d.fab.lastExch + 3 * 800000 * 9)

/-- TIME_HOLDOVER (R286): SCH_TC keeps the rate it has. -/
def execTimeHoldover (s : State) : Host.Outcome State Fault Refusal :=
  s.upd fun _ d => if d.holdoverDue then (d.setTimeState 3).mapFab fun f => { f with good := 0, rate := f.slew.sign } else d

/-- TIME_SYNC_STATUS (R286). -/
def execTimeSyncStatus (h : Hdr) (s : State) : Host.Outcome State Fault Refusal :=
  s.upd fun _ d => d.command 0x72 h fun o d =>
    d.complete o .ok ((d.word .rFAB_TIME_STAT []).toNat + (d.word .rFAB_TIME_OFS []).toNat * 2 ^ 64)

end Sys2Proof.Machine
end

