-- ==== Sys2Proof/Machine/Rings.lean ====
section
/-! DEFINITION. Host windows' commands (R242, R246), doorbells and ring configuration (R312 to R315), port resets (R335),
configuration requests (R310) and MSI-X (R334). -/
namespace Sys2Proof.Machine

/-! ## Window commands -/

/-- WINDOW_MAP (R242). -/
def execWindowMap (h : Hdr) (window : BitVec 16) (flags : Byte) (haddr length : Word) (s : State) :
    Host.Outcome State Fault Refusal :=
  s.upd fun _ d => d.command 0x60 h fun o d =>
    let w := window.toNat
    let f := flags.toNat
    let p := windowPort w
    let cfg := (d.port p).cfg
    let n := length.toNat
    if w > 1023 ∨ h.src ≠ .host p ∨ f ≥ 32 ∨ haddr.toNat % 4096 ≠ 0 ∨ n % 4096 ≠ 0 ∨ n = 0 ∨ n > 0x400000000 ∨
        (bit f 2 ∧ (!cfg.ats ∨ !cfg.pri)) ∨ (bit f 3 ∧ !cfg.ro) ∨ (bit f 4 ∧ !cfg.ns) then d.complete o .badParam 0
    else if d.windowNamed w then d.complete o .busy 0
    else
      let d1 := d.setWord .rXFR_WIN_BASE [w] haddr
      let cfgw := n / 4096 + f % 32 * 2 ^ 48 + 2 ^ 63
      (d1.setWord .rXFR_WIN_CFG [w] (BitVec.ofNat 64 cfgw)).complete o .ok 0

/-- WINDOW_UNMAP (R242). -/
def execWindowUnmap (h : Hdr) (window : BitVec 16) (s : State) : Host.Outcome State Fault Refusal :=
  s.upd fun _ d => d.command 0x61 h fun o d =>
    let w := window.toNat
    if w > 1023 ∨ h.src ≠ .host (windowPort w) then d.complete o .badParam 0
    else if d.windowNamed w then d.complete o .busy 0
    else (d.clearWindow w).complete o .ok 0

/-- TRANSFER_RESUME (R246). -/
def execTransferResume (h : Hdr) (engine : Byte) (c : Coords) (s : State) : Host.Outcome State Fault Refusal :=
  s.upd fun _ d => d.command 0x62 h fun o d =>
    let xn := engine.toNat
    let x := d.x xn
    match x.faults with
    | [] => d.complete o .badParam 0
    | no :: rest =>
      match x.ctxs.find? fun k => k.no = no with
      | none => d.complete o .badParam 0
      | some k =>
        match k.stop with
        | none => d.complete o .badParam 0
        | some st =>
          let want := [c.c0.toNat, c.c1.toNat, c.c2.toNat, c.c3.toNat, c.c4.toNat]
          if xn > 31 ∨ want ≠ k.desc.coords st.chunk then d.complete o .badParam 0
          else (d.setX xn { x.update no (·.resume st.chunk) with faults := rest }).complete o .ok 0

/-! ## Doorbells and rings -/

def Dev.mapRing (d : Dev) (p : Port) (k : Nat) (f : RingPair → RingPair) : Dev :=
  d.setPort p ((d.port p).setRing k (f ((d.port p).ring k)))

/-- SQ_TAIL: a tail of SIZE entries or more is ignored and sets ERR (R314). -/
def execSqTail (p : Port) (k : Fin 4) (value : Word) (s : State) : Host.Outcome State Fault Refusal :=
  s.upd fun _ d => d.mapRing p k.val fun r =>
    if !r.sqEn then r
    else if value.toNat ≥ 2 ^ r.sqSize then { r with sqErr := true }
    else { r with sqTail := value.toNat }

/-- Entries that a write of RQ_HEAD frees: those from the old head up to the new one; of a ring in which every entry is in use,
all of them where the head comes round to where it was (R315). -/
def RingPair.freed (r : RingPair) (head : Nat) : Nat :=
  let size := 2 ^ r.rqSize
  let n := (head + size - r.rqHead) % size
  if n = 0 ∧ r.used ≥ size then size else n

/-- RQ_HEAD: the host frees entries up to the head (R315); what waits for entries is then written (R333). -/
def execRqHead (p : Port) (k : Fin 4) (value : Word) (s : State) : Host.Outcome State Fault Refusal :=
  s.upd fun _ d =>
    let r := (d.port p).ring k.val
    let size := 2 ^ r.rqSize
    if !r.rqEn then d
    else if value.toNat ≥ size then d.mapRing p k.val fun r => { r with rqErr := true }
    else
      (d.mapRing p k.val fun r => { r with rqHead := value.toNat, used := r.used - r.freed value.toNat }).flushPort p

/-- RING_ENABLE: a write of ENABLE = 1 with the base and SIZE the host has written (R313). -/
def execRingEnable (p : Port) (rq : Bool) (k : Fin 4) (base value : Word) (s : State) :
    Host.Outcome State Fault Refusal :=
  s.upd fun _ d =>
    let size := value.toNat % 16
    let ok := decide (4 ≤ size ∧ size ≤ 12 ∧ base.toNat % 4096 = 0)
    d.mapRing p k.val fun r =>
      if rq then
        if r.rqEn then r
        else if ok then { r with rqEn := true, rqErr := false, rqSize := size, rqBase := base.toNat, rqHead := 0,
                                 rqTail := 0, phase := true, used := 0, reserved := 0, waiting := [] }
        else { r with rqErr := true, rqSize := size, rqBase := base.toNat }
      else
        if r.sqEn then r
        else if ok then { r with sqEn := true, sqErr := false, sqSize := size, sqBase := base.toNat, sqHead := 0,
                                 sqTail := 0 }
        else { r with sqErr := true, sqSize := size, sqBase := base.toNat }

/-- RING_DISABLE: nothing is fetched from the ring any more, or replies to it are discarded (R313). -/
def execRingDisable (p : Port) (rq : Bool) (k : Fin 4) (s : State) : Host.Outcome State Fault Refusal :=
  s.upd fun _ d => d.mapRing p k.val fun r =>
    if rq then { r with rqEn := false, waiting := [] } else { r with sqEn := false }

/-! ## Reads of the BARs

The opcode table has no row for a read of a BAR: it changes nothing. These functions say what one returns. -/

/-- A read of 4 or 8 naturally aligned bytes of 64-bit registers, least significant byte first; none: Unsupported Request (R6, R312). -/
def barRead (word : Nat → Nat) (o n : Nat) : Option (List Nat) :=
  if (n = 4 ∨ n = 8) ∧ o % n = 0 then some (((leBytes 8 (word (o / 8 * 8))).drop (o % 8)).take n) else none

/-- A read of BAR2: control space, with 0 where no register is defined (R10, R311, R312). -/
def Dev.bar2Read (d : Dev) (o n : Nat) : Option (List Nat) :=
  barRead (fun a => match regAt a with | some (r, idx) => (d.readReg r idx).toNat | none => 0) o n

/-- SQ_CFG or RQ_CFG (Table 16-3). -/
def ringCfg (en err : Bool) (size : Nat) : Nat := b2n en * 2 ^ 63 + b2n err * 2 ^ 62 + size % 16

/-- The word at an offset of BAR0 (Table 16-2): doorbells are write-only and read 0. -/
def Dev.bar0Word (d : Dev) (p : Port) (o : Nat) : Nat :=
  let x := d.port p
  let code := match p with | .ha => 0 | .hb => 1
  if o = 0 then d.hstState
  else if o = 8 then (d.word .rHST_SEQ []).toNat
  else if o = 0x10 then x.evLost
  else if 0x100 ≤ o ∧ o < 0x180 then
    let r := x.ring ((o - 0x100) / 32)
    if o % 32 = 0 then r.sqBase
    else if o % 32 = 8 then ringCfg r.sqEn r.sqErr r.sqSize
    else if o % 32 = 16 then r.rqBase
    else ringCfg r.rqEn r.rqErr r.rqSize
  else if 0x1080 ≤ o ∧ o < 0x10A0 then (x.ring ((o - 0x1080) / 8)).sqHead
  else if 0x10C0 ≤ o ∧ o < 0x10E0 then (x.ring ((o - 0x10C0) / 8)).rqTail
  else if 0x2000 ≤ o ∧ o < 0x2400 then
    let v := (o - 0x2000) / 16
    let entry := Config.msixEntry code v
    if o % 16 = 0 then entry % 2 ^ 64 else entry / 2 ^ 64 % 2 ^ 32 + b2n (bit x.msixMask v) * 2 ^ 32
  else if o = 0x3000 then x.msixPend
  else 0

/-- A read of a port's BAR0 (R312). -/
def Dev.bar0Read (d : Dev) (p : Port) (o n : Nat) : Option (List Nat) := barRead (d.bar0Word p) o n

/-- BAR2_WRITE: discarded and counted (R312). -/
def execBar2Write (_p : Port) (_offset : BitVec 28) (_value : Word) (s : State) : Host.Outcome State Fault Refusal :=
  s.upd fun _ d => d.count .rHST_BAR2_WR_CNT [] 1

/-! ## Resets of a port -/

/-- Requests outstanding through a port's windows fail with PORT_DOWN, as do descriptors whose translation is awaited
(R245, R335). -/
def Dev.dropPortRequests (d : Dev) (p : Port) : Dev :=
  { d with xfer := d.xfer.map fun e =>
      let x := e.2
      let thru (c : XCtx) (r : XReq) : Option Nat :=
        match c.desc.windowOf r.chunk r.off with
        | some (w, _, _) => if windowPort w = p then some w else none
        | none => none
      let hit (r : XReq) : Bool :=
        x.ctxs.any fun c => c.no = r.ctx && (thru c r).isSome
      let ctxs := x.ctxs.map fun c =>
        let c1 := x.reqs.foldl (fun c r =>
          if r.ctx = c.no then match thru c r with
            | some w => c.fail 6 w r.chunk 0
            | none => c
          else c) c
        match c1.wait, c1.desc.windowOf c1.chunk c1.off with
        | some _, some (w, _, _) => if windowPort w = p then c1.fail 6 w c1.chunk 0 else c1
        | _, _ => c1
      (e.1, { x with ctxs := ctxs, reqs := x.reqs.filter fun r => !hit r }) }

/-- Commands of a port that the arbiter has seen and that have not completed (R335). -/
def Dev.owedTo (d : Dev) (p : Port) : List Nat :=
  let owed := d.halts ++ (match d.long with | some l => [l.owed] | none => [])
    ++ (match d.snapReq with | some r => [r.owed] | none => []) ++ d.flash.ops.filterMap (·.owed) ++ d.cut
  (owed.filter fun o => o.hdr.src = .host p).map (·.seq)

/-- The effects of a Function Level Reset, loss of link, or a reset or switch-off of a port's domain (R335). -/
def Dev.resetPort (d : Dev) (p : Port) : Dev :=
  let x := d.port p
  let d1 := d.setPort p
    { link := x.link, perst := x.perst, cfgReady := x.cfgReady, spdm := x.spdm, gone := d.owedTo p }
  let d2 := { d1 with claim := if d1.claim = some (Source.host p) then none else d1.claim }
  let d3 := (d2.setAts p {}).dropPortRequests p
  let first := match p with | .ha => 0x8020000 | .hb => 0x8022000
  { d3 with regs := Tab.clear d3.regs first (first + 0x2000) }

def execFunctionLevelReset (p : Port) (s : State) : Host.Outcome State Fault Refusal :=
  s.upd fun _ d => d.resetPort p

/-- PERST_N of a port is driven low, or released: low holds the link down with the effects of R335 (R379). -/
def execPerstN (p : Port) (low : Bool) (s : State) : Host.Outcome State Fault Refusal :=
  s.upd fun _ d =>
    if low then (d.setPort p { d.port p with perst := true, link := false }).resetPort p
    else d.setPort p { d.port p with perst := false }

def execLinkLoss (p : Port) (s : State) : Host.Outcome State Fault Refusal :=
  s.upd fun _ d => (d.setPort p { d.port p with link := false }).resetPort p

/-- PCIE_LINK_TRAINED: the port is no longer down, unless its PERST_N or its domain holds it down (R301, R379). -/
def execPcieLinkTrained (p : Port) (s : State) : Host.Outcome State Fault Refusal :=
  s.upd fun _ d =>
    let on := bit (d.word .rCLK_PD_STAT []).toNat (match p with | .ha => 32 | .hb => 33)
    if (d.port p).perst || !on then d else (d.setPort p { d.port p with link := true }).flushPort p

/-! ## Configuration space and MSI-X -/

/-- Send every pending message that nothing masks any more (R334). -/
def Dev.sendPending (d : Dev) (p : Port) : Dev :=
  (List.range 64).foldl (fun d v =>
    let x := d.port p
    if bit x.msixPend v && !bit x.msixMask v && !x.cfg.fnMask then
      (d.setPort p { x with msixPend := putBits x.msixPend v v 0 }).emit (.msix p v)
    else d) d

/-- CONFIGURATION_REQUEST (R310): Request Retry Status until the port's configuration space is ready. -/
def execConfigurationRequest (p : Port) (q : CfgReq) (s : State) : Host.Outcome State Fault Refusal :=
  s.upd fun _ d =>
    let x := d.port p
    if d.run = .off ∨ !x.link then d
    else if !x.cfgReady then d.emit (.config p true 0)
    else
      match q with
      | .readIds => d.emit (.config p false (Config.vendorId % 65536 + 0x0D41 * 65536))
      | .readClass => d.emit (.config p false (0x120000 * 256 + (if d.cfg.steppingB0 then 0x10 else 0)))
      | .readSerial => d.emit (.config p false d.cfg.serial)
      | .write e =>
        let c : PcieCfg := { bme := e.bme, ats := e.ats, pri := e.pri, priAlloc := e.priAlloc.toNat, tag10 := e.tag10,
                             tag14 := e.tag14, ro := e.ro, ns := e.ns, mps := min 512 (128 * 2 ^ e.mps.toNat),
                             fnMask := e.fnMask }
        -- a raised allocation lets further page requests go out (R244)
        ((((d.setPort p { x with cfg := c }).emit (.config p false 0)).sendPending p).flushPort p).grantSlots p

/-- MSIX_VECTOR_UNMASK: a pending message of the vector is sent (R334). -/
def execMsixVectorUnmask (p : Port) (v : Fin 64) (s : State) : Host.Outcome State Fault Refusal :=
  s.upd fun _ d =>
    let x := d.port p
    (d.setPort p { x with msixMask := putBits x.msixMask v.val v.val 0 }).sendPending p

end Sys2Proof.Machine
end

