-- ==== Sys2Proof/Machine/Power.lean ====
section
/-! DEFINITION. Power domains (R299 to R301) and the thermal trip (R306). -/
namespace Sys2Proof.Machine

/-! ## The forty domains -/

/-- What a domain is (Table 15-4): its yard and kind, a PCIe port, the management or clock domain, or a bridge. -/
inductive Domain where
  | yard (y kind : Nat)
  | pcie (p : Port)
  | always
  | bridge (k : Nat)
  deriving DecidableEq, Repr

def domainOf (pd : Nat) : Domain :=
  if pd < 32 then .yard (pd / 8) (pd % 8)
  else if pd = 32 then .pcie .ha
  else if pd = 33 then .pcie .hb
  else if pd < 36 then .always
  else .bridge (pd - 36)

/-- The run states in which Table 15-4 lets a domain be switched. -/
def Domain.switchable : Domain → PartState → Bool
  | .yard _ k, s => s = .ready || (k ≥ 6 && (s = .loaded || s = .faulted))
  | .pcie _, s => anyState s
  | .always, _ => false
  | .bridge _, s => s = .ready

/-- Controllers behind an HBM PHY group or a DDR5 PHY pair. -/
def phyUnits (y kind : Nat) : List Nat := if kind = 5 then [5 * y, 5 * y + 1, 5 * y + 2] else [5 * y + 3, 5 * y + 4]

/-- Fabric ports of a yard's SerDes group (R267). -/
def groupPorts (y : Nat) : List Nat := (List.range 6).map fun i => 6 * y + i

/-- The bridge ends of a bridge domain: yard, and whether it is the yard's BX bridge. -/
def bridgeEnds (k : Nat) : List (Nat × Bool) :=
  nth [] [[(0, true), (1, true)], [(1, false), (3, false)], [(3, true), (2, true)], [(2, false), (0, false)]] k

/-- Set how many lanes of a bridge's ends are up. -/
def Dev.setBridge (d : Dev) (k lanes : Nat) : Dev :=
  (bridgeEnds k).foldl (fun d e => d.setF (if e.2 then fNOC_BRIDGE_BX_UP else fNOC_BRIDGE_BY_UP) [e.1] lanes) d

/-! ## Off -/

def Dev.setStat (d : Dev) (pd : Nat) (on : Bool) : Dev :=
  d.setWord .rCLK_PD_STAT [] (BitVec.ofNat 64 (putBits (d.word .rCLK_PD_STAT []).toNat pd pd (b2n on)))

/-- A domain goes off (Table 15-5). -/
def Dev.switchOff (d : Dev) (pd : Nat) : Dev :=
  if !d.domainOn pd then d
  else
    let d1 := d.setStat pd false
    match domainOf pd with
    | .yard y k =>
      if k = 5 ∨ k = 6 then (phyUnits y k).foldl (fun d u => d.setF fMEM_STAT_SELF_REFRESH [u] 1) d1
      else if k = 7 then (groupPorts y).foldl (fun d p => d.leaveUp p 0) d1
      else d1
    | .pcie p => (d1.setPort p { d1.port p with link := false }).resetPort p
    | .always => d1
    | .bridge k => d1.setBridge k 0

/-! ## On -/

/-- Memories of a quadrant's positions read 0 (Table 15-5). -/
def Dev.zeroQuadrant (d : Dev) (y q : Nat) : Dev :=
  let at_ (kind : Nat) : List Nat := (List.range (physicalCount kind)).filter fun p => posQuadrant kind p = q
  let each (d : Dev) (space kind : Nat) : Dev := (at_ kind).foldl (fun d p => d.zeroInstance y space p) d
  each (each (each (each (each d 1 0) 2 0) 3 1) 4 1) 5 2

/-- A domain is ready for use (R300, Table 15-5). The ports of a SerDes group then train, but for those a FABRIC_TRAIN has
taken down (R269). -/
def Dev.switchOn (d : Dev) (pd : Nat) : Dev :=
  let d1 := d.setStat pd true
  match domainOf pd with
  | .yard y k =>
    if k < 4 then d1.zeroQuadrant y k
    else if k = 4 then d1.zeroInstance y 0 0
    else if k = 7 then (groupPorts y).foldl (fun d p => if (d.fport p).down then d else d.trainPort p (d.fport p).wide) d1
    else
      let d2 := (phyUnits y k).foldl (fun d u => d.setF fMEM_STAT_SELF_REFRESH [u] 0) d1
      { d2 with retraining := d2.retraining ++ (phyUnits y k).filter fun u => !d2.retraining.contains u }
  | .pcie _ | .always => d1
  | .bridge k => d1.setBridge k 0x3F

/-- POWER_DOMAIN_READY: a domain that was requested on has come on (R300). -/
def execPowerDomainReady (pd : Fin 40) (s : State) : Host.Outcome State Fault Refusal :=
  s.upd fun _ d =>
    if !d.up || d.domainOn pd.val || !bit (d.word .rCLK_PD_CTL []).toNat pd.val then d else d.switchOn pd.val

/-! ## Requests -/

/-- CLK_PD_CTL and CLK_PD_STAT differ: an earlier change is still in progress (R300). -/
def Dev.pdChanging (d : Dev) : Bool := d.word .rCLK_PD_CTL [] ≠ d.word .rCLK_PD_STAT []

/-- The status of a write of CLK_PD_CTL (R300); after a trip domains come back on only below 95 °C (R306). -/
def Dev.pdStatus (d : Dev) (v : Nat) : Status :=
  let cur := (d.word .rCLK_PD_CTL []).toNat
  let changed := (List.range 40).filter fun pd => bit v pd ≠ bit cur pd
  if !bit v 34 || !bit v 35 || v ≥ 2 ^ 40 then .badParam
  else if changed.any (fun pd => !(domainOf pd).switchable d.run) || (d.pdChanging && !changed.isEmpty) then .busy
  else if (d.tripped || d.flag fCLK_THERM_TRIP []) && decide (d.junction ≥ 95) && changed.any (fun pd => bit v pd) then .busy
  else .ok

/-- Switch off the domains whose request has just gone from 1 to 0. -/
def Dev.dropDomains (d : Dev) (v : Nat) : Dev :=
  (List.range 40).foldl (fun d pd => if bit v pd then d else d.switchOff pd) d

/-- The change of CLK_PD_CTL to a value that R300 accepts. The reply comes before a port's own domain goes off. -/
def Dev.writePd (d : Dev) (o : Owed) (v : Nat) : Dev :=
  let st := d.pdStatus v
  if st = .ok then ((d.setWord .rCLK_PD_CTL [] (BitVec.ofNat 64 v)).complete o .ok 0).dropDomains v else d.complete o st 0

/-! ## The thermal trip -/

/-- The junction has reached 110 °C and the part has not tripped yet (R306). -/
def Dev.tripDue (d : Dev) : Bool := d.up && !d.tripped && decide (d.junction ≥ 110)

/-- The trip (R306, Table 18-1): the fault is recorded and reported at once, everything stops as under ABORT, and every domain
but PD34 and PD35 goes off. -/
def Dev.trip (d : Dev) : Dev :=
  let d1 := if d.run.inRun then (d.stopFault { code := 0x0C }).reportFault else d
  let d2 := d1.cancelLong.stopAll .faulted
  let on := 3 * 2 ^ 34
  let d3 := (d2.setWord .rCLK_PD_CTL [] (BitVec.ofNat 64 on)).setF fCLK_THERM_TRIP [] 1
  Dev.dropDomains { d3 with tripped := true } on

/-- THERMAL_TRIP (R306). -/
def execThermalTrip (s : State) : Host.Outcome State Fault Refusal := s.upd fun _ d => if d.tripDue then d.trip else d

end Sys2Proof.Machine
end

