-- ==== Sys2Proof/Machine/WriteReg.lean ====
section
/-! DEFINITION. WRITE_REG and the rows that are a WRITE_REG to one register (R7 to R11, R227, R300, R325). -/
namespace Sys2Proof.Machine

/-! ## What a write may say -/

def Field.of (f : Field) (v : Nat) : Nat := bits v f.hi f.lo

/-- Every bit that no field covers is 0 (R9). -/
def reservedClear (r : RegName) (v : Nat) : Bool := r.fields.foldl (fun w f => putBits w f.hi f.lo 0) v = 0

/-- Every RO field is written with its current value (R8). -/
def readOnlyKept (r : RegName) (cur v : Nat) : Bool := r.fields.all fun f => f.acc ≠ .ro || Field.of f v = Field.of f cur

/-- No RW field of Level Expert changes (R9). -/
def expertKept (r : RegName) (cur v : Nat) : Bool :=
  r.fields.all fun f => f.acc ≠ .rw || !f.expert || Field.of f v = Field.of f cur

def inRange (lo x hi : Nat) : Bool := decide (lo ≤ x ∧ x ≤ hi)
def inOffset (x : Int) (m : Int) : Bool := decide (-m ≤ x ∧ x ≤ m)

/-- A port named in FAB_RSTAGE: 0 to 23, or 31 for none (R278). -/
def stagePort (p : Nat) : Bool := decide (p < 24 ∨ p = 31)

/-- The ranges that register tables give RW fields. -/
def valueInRange (r : RegName) (v : Nat) : Bool :=
  if r = .rHST_CTL then inRange 100 (Field.of fHST_CTL_CMD_TIMEOUT_MS v) 60000
  else if r = .rXFR_CTL then inRange 1 (Field.of fXFR_CTL_PRI_TIMEOUT v) 10000
  else if r = .rCLK_PL_CTL then inRange 1 (Field.of fCLK_PL_CTL_TAU_MS v) 100
  else if r = .rCLK_THERM then inRange 85 (Field.of fCLK_THERM_THROTTLE_C v) 104
  else if r = .rCLK_STRETCH_CTL then inOffset (signed 8 (Field.of fCLK_STRETCH_CTL_THRESH_OFS v)) 20
  else if r = .rCLK_AVS then inOffset (signed 8 (Field.of fCLK_AVS_OFS v)) 50
  else if r = .rENG_MTOL then inRange 4 (Field.of fENG_MTOL_TOL_EXP v) 20
  else if r = .rREC_SET then Field.of fREC_SET_OFFSET v % 8 = 0
  else if r = .rFAB_RSTAGE then
    stagePort (Field.of fFAB_RSTAGE_PORT0 v) && stagePort (Field.of fFAB_RSTAGE_PORT1 v) && stagePort (Field.of fFAB_RSTAGE_PORT2 v)
  else true

/-- Registers with VALID in bit 63 and MORE in bit 62, which writing VALID clears together. -/
def hasMore (r : RegName) : Bool :=
  [RegName.rSCH_VIOL_STAT, .rREC_FAULT, .rENG_MSDC, .rRING_VFAULT, .rUPD_FAULT, .rOCM_ECC_CE, .rOCM_ECC_UE, .rMEM_ECC_CE,
    .rMEM_ECC_UE].contains r

/-- The run is stopped by the fault that a register records, so that its VALID may not be cleared. -/
def Dev.stoppedBy (d : Dev) (r : RegName) (idx : List Nat) : Bool :=
  let code := d.getF fREC_FAULT_CODE []
  let yard := d.getF fREC_FAULT_YARD []
  let pos := d.getF fREC_FAULT_POS []
  let unit := d.getF fREC_FAULT_UNIT []
  let i0 := nth 0 idx 0
  (d.sched.stop.isSome || d.run = .faulted) &&
    (if r = .rREC_FAULT then true
    else if r = .rSCH_VIOL_STAT then code = 1
    else if r = .rENG_MSDC then code = 2 && yard = i0 && d.posM i0 (nth 0 idx 1) = pos
    else if r = .rRING_VFAULT then code = 6 && yard = i0
    else if r = .rUPD_FAULT then (code = 7 || code = 8) && unit = i0
    else if r = .rOCM_ECC_UE then code = 3 && yard = i0
    else if r = .rMEM_ECC_UE then code = 4 && unit = i0
    else false)

/-- The write is accepted (R8, R9, and the register's own table). -/
def Dev.writeOk (d : Dev) (r : RegName) (idx : List Nat) (v : Nat) : Bool :=
  let cur := (d.readReg r idx).toNat
  reservedClear r v && readOnlyKept r cur v && (d.flag fDEV_CTL_EXPERT_ENABLE [] || expertKept r cur v) && valueInRange r v &&
    !(hasMore r && bit v 63 && d.stoppedBy r idx)

/-! ## What a write does -/

/-- The stored word after a write: RW fields replaced, W1C bits cleared (R8). -/
def writtenWord (r : RegName) (old v : Nat) : Nat :=
  let w := r.fields.foldl (fun w f => match f.acc with
    | .rw => putBits w f.hi f.lo (Field.of f v)
    | .w1c => if Field.of f v = 1 then putBits w f.hi f.lo 0 else w
    | .ro | .wo => w) old
  if hasMore r && bit v 63 then putBits w 62 62 0 else w

/-- A word with its RW fields of Level Expert at their reset values (R11). -/
def expertReset (r : RegName) (idx : List Nat) (w : Nat) : Nat :=
  r.fields.foldl (fun w f =>
    if f.acc = .rw ∧ f.expert then putBits w f.hi f.lo (Field.of f (regDefault r idx).toNat) else w) w

/-- Clearing EXPERT_ENABLE returns every RW field of Level Expert to its reset value (R11). -/
def Dev.dropExperts (d : Dev) : Dev :=
  let rails := (List.range 16).filter fun r => d.getF fCLK_AVS_OFS [r] ≠ 0
  let d1 := d.regs.foldl (fun d e => match regAt e.1 with
    | some (r, idx) => d.setWord r idx (BitVec.ofNat 64 (expertReset r idx e.2.toNat))
    | none => d) d
  let d2 := (List.range 24).foldl (fun d p => d.setF fFAB_PORT_EQ_FFE_PRESET [p] d.cfg.preset) d1
  rails.foldl Dev.setRail d2

/-- What follows a write at once. -/
def Dev.afterWrite (d : Dev) (r : RegName) (idx : List Nat) (old v : Nat) : Dev :=
  if r = .rDEV_CTL then (if bit v 0 then d else d.dropExperts.watchPower)
  else if r = .rCLK_AVS then (if Field.of fCLK_AVS_OFS old = Field.of fCLK_AVS_OFS v then d else d.setRail (nth 0 idx 0))
  else if r = .rCLK_PL_CTL then d.watchPower.loopOffRise
  else if r = .rMEM_CTL && bit v 5 && !d.retraining.contains (nth 0 idx 0) then
    { d with retraining := d.retraining ++ [nth 0 idx 0] }
  else d

/-- A retraining that the run state does not permit (R227). -/
def Dev.retrainBusy (d : Dev) (r : RegName) (v : Nat) : Bool := r = .rMEM_CTL && bit v 5 && !inReadyLoaded d.run

/-- The work of a WRITE_REG that passed the arbiter's checks (R325). -/
def Dev.writeReg (d : Dev) (o : Owed) (addr v : Nat) : Dev :=
  match regAtAddress addr with
  | none => d.complete o .badParam 0
  | some (r, idx) =>
    if !d.writeOk r idx v then d.complete o .badParam 0
    else if d.retrainBusy r v then d.complete o .busy 0
    else if r = .rCLK_PD_CTL then d.writePd o v
    else
      let old := (d.word r idx).toNat
      ((d.setWord r idx (BitVec.ofNat 64 (writtenWord r old v))).afterWrite r idx old v).complete o .ok 0

/-- WRITE_REG (R325). -/
def execWriteReg (h : Hdr) (addr value : Word) (s : State) : Host.Outcome State Fault Refusal :=
  s.upd fun _ d => d.command 0x31 h fun o d => d.writeReg o addr.toNat value.toNat

/-- EXPERT_ENABLE: a WRITE_REG to DEV_CTL (R11). -/
def execExpertEnable (h : Hdr) (value : Word) (s : State) : Host.Outcome State Fault Refusal :=
  s.upd fun _ d => d.command 0x31 h fun o d => d.writeReg o (regAddress .rDEV_CTL []) value.toNat

/-- RETRAIN: a WRITE_REG to a controller's MEM_CTL with RETRAIN = 1 and the given other bits (R227). -/
def execRetrain (h : Hdr) (unit : Fin 20) (value : Word) (s : State) : Host.Outcome State Fault Refusal :=
  s.upd fun _ d => d.command 0x31 h fun o d =>
    d.writeReg o (regAddress .rMEM_CTL [unit.val]) (putBits value.toNat 5 5 1)

/-- CLK_PD_CTL: a WRITE_REG to the register of the power domains (R300). -/
def execClkPdCtl (h : Hdr) (value : Word) (s : State) : Host.Outcome State Fault Refusal :=
  s.upd fun _ d => d.command 0x31 h fun o d => d.writeReg o (regAddress .rCLK_PD_CTL []) value.toNat

end Sys2Proof.Machine
end

