-- ==== Sys2Proof/Machine/Fencing.lean ====
section
/-! DEFINITION. Command fences of physical positions (R112, R200, R264, R356 to R358). -/
namespace Sys2Proof.Machine

/-- First bit of a kind's field in REC_FENCE: M, V, S, transfer engines (Table 18-9). -/
def fenceBit (kind pos : Nat) : Nat := (if kind = 0 then 0 else if kind = 1 then 18 else if kind = 2 then 27 else 32) + pos

/-- The position exists (R356). -/
def positionExists (yard kind pos : Nat) : Bool := decide (yard < 4 ∧ kind < 4 ∧ pos < physicalCount kind)

/-- Set or lift a fence in REC_FENCE, and in RING_STAT.FENCED for a matrix position (R113, R358). -/
def Dev.markFence (d : Dev) (y kind pos : Nat) (on : Bool) : Dev :=
  let w := putBits (d.word .rREC_FENCE [y]).toNat (fenceBit kind pos) (fenceBit kind pos) (b2n on)
  let d1 := d.setWord .rREC_FENCE [y] (BitVec.ofNat 64 w)
  if kind = 0 then
    d1.setF fRING_STAT_FENCED [y] (putBits (d1.getF fRING_STAT_FENCED [y]) pos pos (b2n (on || d.recFailed y 0 pos)))
  else d1

/-- The logical engine that a position serves under the current assignment; a transfer engine always serves (R356). -/
def Dev.servedBy (d : Dev) (y kind pos : Nat) : Option Nat :=
  (List.range (logicalCount kind)).find? fun e =>
    (if kind = 0 then d.posM y e else if kind = 1 then d.posV y e else if kind = 2 then d.posS y e else e) = pos

/-- The mangers of a position are emptied (R112). -/
def Dev.emptyMangers (d : Dev) (y e : Nat) : Dev :=
  match Tab.find d.mEng (16 * y + e) with
  | some m => { d with mEng := Tab.insert d.mEng (16 * y + e) { m with mangers := [] } }
  | none => d

/-- UNIT of trigger source 32: the position's bit in REC_FENCE, by yard, + 256 for a lifted fence (Table 18-4). -/
def fenceUnit (y kind pos : Nat) (lifted : Bool) : Nat := 64 * y + fenceBit kind pos + 256 * b2n lifted

/-- FENCE_ENGINE's work on a position that exists (R356). From then on the array is neither fed nor stepped, its memories are out of
reach, and the engine sends no flits (R112, R200, R264). -/
def Dev.fence (d : Dev) (y kind pos : Nat) : Dev :=
  if d.cmdFenced y kind pos || d.recFailed y kind pos then d
  else
    let d1 := (d.markFence y kind pos true).fire 32 (fenceUnit y kind pos false)
    match d.servedBy y kind pos with
    | none => d1
    | some e =>
      let d2 := if kind = 0 && d1.run.inRun then d1.emptyMangers y e else d1
      d2.stopFault { code := 0x0A, detail := kind, yard := y, kind := kind, pos := pos }

/-- FENCE_ENGINE (R356). -/
def execFenceEngine (h : Hdr) (yard kind pos : Byte) (s : State) : Host.Outcome State Fault Refusal :=
  s.upd fun _ d => d.command 0x22 h fun o d =>
    if !positionExists yard.toNat kind.toNat pos.toNat then d.complete o .badParam 0
    else (d.fence yard.toNat kind.toNat pos.toNat).complete o .ok 0

/-- The memories of a position read 0 (R199, R357). -/
def Dev.zeroPosition (d : Dev) (y kind pos : Nat) : Dev :=
  if kind = 0 then (d.zeroInstance y 1 pos).zeroInstance y 2 pos
  else if kind = 1 then (d.zeroInstance y 3 pos).zeroInstance y 4 pos
  else if kind = 2 then d.zeroInstance y 5 pos
  else d

/-- UNFENCE_ENGINE (R357). -/
def execUnfenceEngine (h : Hdr) (yard kind pos : Byte) (s : State) : Host.Outcome State Fault Refusal :=
  s.upd fun _ d => d.command 0x23 h fun o d =>
    let y := yard.toNat
    let k := kind.toNat
    let p := pos.toNat
    if !positionExists y k p || !d.cmdFenced y k p then d.complete o .badParam 0
    else (((d.markFence y k p false).zeroPosition y k p).fire 32 (fenceUnit y k p true)).complete o .ok 0

end Sys2Proof.Machine
end

