-- ==== Sys2Proof/Machine/Snapshots.lean ====
section
/-! DEFINITION. Snapshots and RESTORE (R359 to R361). -/
namespace Sys2Proof

/-- What a state block holds that this part has not written: its layout is Stolcon's (R360; log entry 20). -/
opaque Config.stateBlockOf : List Nat → Machine.SnapBlock

end Sys2Proof

namespace Sys2Proof.Machine

/-! ## What a snapshot covers -/

/-- Add a range, as (first, end), to rising ranges that do not touch. -/
def insertRange (lo hi : Nat) : List (Nat × Nat) → List (Nat × Nat)
  | [] => [(lo, hi)]
  | (l, h) :: t =>
    if hi < l then (lo, hi) :: (l, h) :: t
    else if h < lo then (l, h) :: insertRange lo hi t
    else insertRange (min lo l) (max hi h) t

/-- The BUFFER, REGION and SHARD ranges of an image in the tiers: first address and length; a stashed region has two slots. -/
def tierRanges (im : Image) : List (Nat × Nat) :=
  ((im.buffers.filter fun b => b.space > 5).map fun b => (b.off, b.len)) ++
    (im.regions.flatMap fun g => (g.base, g.len) :: (if g.stashed then [(g.base + g.slotOff, g.len)] else [])) ++
    im.shards.flatMap (shardRanges im)

/-- Their union, each byte once, as address and length (R360). -/
def tierUnion (im : Image) : List (Nat × Nat) :=
  ((tierRanges im).foldl (fun t r => insertRange r.1 (r.1 + r.2) t) []).map fun r => (r.1, r.2 - r.1)

def inHbm (a : Nat) : Bool :=
  match locate a with
  | .hbm _ _ => true
  | .onchip _ _ _ _ | .ddr _ _ | .window _ _ | .control _ | .nowhere => false

/-- Allocated stalls, by logical engine (R209, R360). -/
def Dev.stallBlocks (d : Dev) : List (Nat × Nat) :=
  [0, 1, 2, 3].flatMap fun y => (List.range 6).flatMap fun space => (List.range (spaceCount space)).flatMap fun e =>
    ((List.range (spaceSize space / 4096)).filter fun k => d.stallAllocated y space e (4096 * k)).map fun k =>
      (onchipAddr y space e (4096 * k), 4096)

/-- The memory blocks of a snapshot with the given SPACES, in the order they are laid out (R360). -/
def Dev.snapRanges (d : Dev) (spaces : Nat) : List (Nat × Nat) :=
  let tiers := match d.sched.image with | some im => tierUnion im | none => []
  (if bit spaces 0 then d.stallBlocks else []) ++
    (tiers.filter fun r => if inHbm r.1 then bit spaces 1 else bit spaces 2)

def align16 (n : Nat) : Nat := ceilDiv n 16 * 16

/-- The number of the next state block this part writes. -/
def Dev.snapNo (d : Dev) : Nat := d.snaps.length

/-- LENGTH of a snapshot taken now (R360). -/
def Dev.snapLen (d : Dev) (spaces : Nat) : Nat :=
  (d.snapRanges spaces).foldl (fun n r => n + 16 + align16 r.2) (0x100 + align16 (Config.stateBlockLen d.snapNo))

/-! ## The state block -/

/-- Registers a state block holds: group tables and status words, trackers, and the shape, flags and drain-queue slots of the
engines (R360). -/
def inStateBlock (r : RegName) : Bool :=
  [RegName.rUPD_GCFG, .rUPD_COEF, .rUPD_GSTAT, .rTRK_CFG, .rTRK_AMAX, .rTRK_BIN, .rENG_MSTAT, .rENG_VSTAT, .rENG_VSLOT].contains r

def offsetKept (o : Nat) : Bool := match regAt o with | some (r, _) => inStateBlock r | none => false

/-- The state of the run as the state block records it (R360). -/
def Dev.stateBlock (d : Dev) : SnapBlock :=
  { sc := d.sched.sc, base := d.sched.base, slips := d.sched.slips, anchor := d.sched.anchor, streams := d.sched.streams,
    mEng := d.mEng, vEng := d.vEng, sEng := d.sEng, gen := d.gen, regs := d.regs.filter fun e => offsetKept e.1,
    tags := d.tags, nodes := d.nodes, fabNodes := d.fab.nodes, landed := d.landed }

/-- The bytes of state block number `n`. -/
def stateBytes (n : Nat) : List Nat := (List.range (Config.stateBlockLen n)).map fun i => Config.stateBlockByte n i % 256

/-- What the bytes of a state block say: one that this part has written, else as its layout has it. -/
def Dev.readSnap (d : Dev) (bs : List Nat) : SnapBlock :=
  match d.snaps.find? fun e => stateBytes e.1 = bs with
  | some e => e.2
  | none => Config.stateBlockOf bs

/-- Put the state block's contents in force (R24, R361). -/
def Dev.putSnap (d : Dev) (b : SnapBlock) : Dev :=
  let d1 := d.withSched fun s =>
    { s with sc := b.sc, base := b.base, slips := b.slips, anchor := b.anchor, streams := b.streams, begun := true, before := none }
  let kept := d1.regs.filter fun e => !offsetKept e.1
  { d1 with regs := (b.regs.filter fun e => offsetKept e.1).foldl (fun t e => Tab.insert t e.1 e.2) kept
            mEng := b.mEng, vEng := b.vEng, sEng := b.sEng, gen := b.gen, tags := b.tags, nodes := b.nodes
            fab := { d1.fab with nodes := b.fabNodes }, landed := b.landed }

/-! ## SNAPSHOT_AT -/

/-- The destination overlaps a BUFFER, REGION or SHARD range (R359). -/
def Dev.destOverlaps (d : Dev) (a len : Nat) : Bool :=
  match d.sched.image with
  | some im => (tierRanges im).any fun r => decide (r.1 < a + len ∧ a < r.1 + r.2)
  | none => false

/-- SNAPSHOT_AT (R359): every check runs at arrival. -/
def execSnapshotAt (h : Hdr) (step sc dst : Word) (spaces : Byte) (s : State) : Host.Outcome State Fault Refusal :=
  s.upd fun _ d => d.command 0x16 h fun o d =>
    let a := dst.toNat
    let sp := spaces.toNat
    let len := d.snapLen sp
    if sc.toNat < d.sched.shown + 64 ∨ sp ≥ 8 ∨ a ≥ 2 ^ 48 ∨ a % 4096 ≠ 0 then d.complete o .badParam 0
    else if d.srcSpace h.src a len true false = .bad ∨ d.destOverlaps a len then d.complete o .badParam 0
    else if d.snapReq.isSome then d.complete o .busy 0
    else { d with snapReq := some ⟨o, step.toNat, sc.toNat, a, sp, false, false, len⟩ }

/-- The snapshot's freeze is to be broadcast: SC − 24 is reached with the engines running (R359). -/
def Dev.snapFreezeDue (d : Dev) : Bool :=
  match d.snapReq with
  | some r => d.run.inRun && d.sched.begun && !d.sched.hold.held && d.sched.stop.isNone && !r.frozen &&
      decide (d.sched.sc + 24 ≥ r.sc)
  | none => false

/-- SNAPSHOT_FREEZE (R359): a freeze that is already pending is joined (R34). -/
def execSnapshotFreeze (s : State) : Host.Outcome State Fault Refusal :=
  s.upd fun _ d =>
    match d.snapReq with
    | some r =>
      if d.snapFreezeDue then
        (Dev.startHold { d with snapReq := some { r with frozen := true } } 10 r.sc).withHold fun h => { h with snap := true }
      else d
    | none => d

/-- The conditions of a safe point that a state can break (R359). -/
def Dev.safePoint (d : Dev) : Bool :=
  ([0, 1, 2, 3].all fun y => d.sched.occupied y = 0) &&
  (d.xfer.all fun e => e.2.ctxs.isEmpty && e.2.waiting.isEmpty && e.2.fixed.isEmpty) && d.inject.isEmpty &&
  (d.upd.all fun e => e.2.queue.isEmpty && e.2.running.isNone && e.2.releases.isEmpty) && d.updSent.isEmpty &&
  d.sched.inFlight.isEmpty && decide (d.sched.lastBusy < d.sched.sc) &&
  (d.mEng.all fun e => e.2.mmas.isEmpty && e.2.reads.isEmpty && e.2.drains.isEmpty && e.2.reshape.isNone) &&
  d.ring.isEmpty && d.net.isEmpty && d.dyn.all DynFlit.passing

/-- The freeze is in effect and the snapshot has not been looked at. -/
def Dev.snapWriteDue (d : Dev) : Bool :=
  match d.snapReq with
  | some r => d.run.inRun && d.sched.hold.held && d.sched.stop.isNone && r.frozen && !r.writing
  | none => false

/-- SNAPSHOT_WRITE: at F = SC, with the conditions of the safe point met, the copy starts; else BUSY and release (R359). -/
def execSnapshotWrite (s : State) : Host.Outcome State Fault Refusal :=
  s.upd fun _ d =>
    match d.snapReq with
    | some r =>
      if !d.snapWriteDue then d
      else if d.sched.hold.freeze = some r.sc && d.safePoint then { d with snapReq := some { r with writing := true } }
      else d.snapBusy
    | none => d

/-- The header of Table 18-3 over the rest of a snapshot. -/
def Dev.snapHeader (d : Dev) (r : SnapReq) (body : List Nat) : List Nat :=
  let digest := match d.sched.image with | some im => im.digest | none => List.replicate 32 0
  leBytes 4 0x50414E53 ++ leBytes 2 0x0100 ++ [b2n d.cfg.steppingB0, r.spaces] ++ leBytes 8 r.step ++ leBytes 8 r.sc ++
    leBytes 4 d.epoch ++ leBytes 2 d.devId ++ leBytes 2 (Config.stateVer (d.getF fSEC_FW_VERSION [])) ++ digest ++
    leBytes 8 (0x100 + body.length) ++ leBytes 8 (Config.stateBlockLen d.snapNo) ++ Config.sm3 body ++ List.replicate 144 0

def pad16 (bs : List Nat) : List Nat := bs ++ List.replicate (align16 bs.length - bs.length) 0

/-- State block and memory blocks (R360); the copy meets the errors of the words it reads (R212, R226). -/
def Dev.snapBody (d : Dev) (r : SnapReq) : List Nat × Dev :=
  (d.snapRanges r.spaces).foldl (fun acc k =>
    let (bs, d1) := acc.2.reads k.1 k.2
    (acc.1 ++ (leBytes 8 k.1 ++ leBytes 8 k.2 ++ pad16 bs), d1)) (pad16 (stateBytes d.snapNo), d)

/-- SNAPSHOT_WRITE_COMPLETE: the copy ends and its header is written last; `ok` is false where a host window fault on the
destination has ended it (R359, R360). -/
def execSnapshotWriteComplete (ok : Bool) (s : State) : Host.Outcome State Fault Refusal :=
  s.upd fun _ d =>
    match d.snapReq with
    | some r =>
      if !r.writing then d
      else
        let reached := match locate r.dst with
          | .window w _ => ok && d.windowValid w && (d.port (windowPort w)).canWrite
          | .onchip _ _ _ _ | .hbm _ _ | .ddr _ _ | .control _ | .nowhere => true
        if !reached then d.snapBusy
        else
          let (body, d0) := d.snapBody r
          -- an error that stops the run ends the copy, and RUN_FAULT the command (R354, R359)
          if d0.sched.stop.isSome then d0 else
          let head := d.snapHeader r body
          let d1 := (d0.writeDest (r.dst + 0x100) body).writeDest r.dst head
          let d2 : Dev := { d1 with snapReq := none, snaps := d1.snaps ++ [(d.snapNo, d.stateBlock)] }
          ((d2.withHold fun h => { h with snap := false }).fire 31 0).complete r.owed .ok (0x100 + body.length + r.sc * 2 ^ 64)
    | none => d

/-! ## RESTORE -/

/-- RESTORE's checks, in order (R361). -/
def Dev.restoreStatus (d : Dev) (im : Image) (b : List Nat) (len : Nat) : Status :=
  let ver := field b 0x1E 2
  let fw := d.getF fSEC_FW_VERSION []
  let body := b.drop 0x100
  if field b 0 4 ≠ 0x50414E53 ∨ field b 4 2 ≠ 0x0100 ∨ field b 0x40 8 ≠ len ∨
      (ver ≠ Config.stateVer fw % 65536 ∧ !Config.readsStateVer fw ver) ∨ (b.drop 0x20).take 32 ≠ im.digest then .imageHeader
  else if Config.sm3 body ≠ (b.drop 0x50).take 32 then .imageSignature
  else if im.multi ∧ field b 0x18 4 ≠ d.epoch then .membershipEpoch
  else if !d.canServe im || !d.domainsOn then .fenced
  else .ok

/-- RESTORE (R361): after its checks it stops everything as ABORT does and assigns positions; not after a trip (R332). -/
def execRestore (h : Hdr) (src length : Word) (r : HostRead) (s : State) : Host.Outcome State Fault Refusal :=
  s.upd fun _ d => d.command 0x17 h fun o d =>
    match srcField src, d.sched.image, d.tripped with
    | none, _, _ => d.complete o .badParam 0
    | some _, _, true => d.complete o .busy 0
    | some _, none, false => d.complete o .busy 0
    | some a, some im, false =>
      let len := length.toNat
      if d.srcSpace h.src a len false false = .bad then d.complete o .badParam 0
      else
        match d.readSource h.src a len r with
        | (none, d) => d.complete o .transferFault 0
        | (some b, d) =>
          let st := d.restoreStatus im b len
          if st = .ok then (d.stopAll .loaded).assign.begin o (.restore b) else d.complete o st 0

/-- A run frozen at the sc of a snapshot, with a HALT in force (R332, R361). -/
def Dev.haltAt (d : Dev) (sc : Nat) : Dev :=
  d.withHold fun h =>
    { h with freeze := some sc, held := true, isHold := true, halt := true, cause := 9, causeSet := 2 ^ 9, freezeReg := sc,
             periods := 0, frozenAt := d.time }

/-- The end of a RESTORE (R361), whose positions were assigned at its start (R102): what START clears, the memory blocks, the state
block, HALTED. -/
def Dev.finishRestore (d : Dev) (o : Owed) (b : List Nat) : Dev :=
  let d1 := (snapBlocks b).foldl (fun d k => d.writeBlock k.1 ((b.drop k.2.1).take k.2.2)) d.clearStart
  let blk := d1.readSnap ((b.drop 0x100).take (field b 0x48 8))
  ((((d1.putSnap blk).haltAt blk.sc).enter .halted).fire 31 1).complete o .ok 0

end Sys2Proof.Machine
end

