-- ==== Sys2Proof/Machine/LongCmd.lean ====
section
/-! DEFINITION. How a long command ends (R320, R327): its work is done, or it has made no progress for HST_CTL.CMD_TIMEOUT_MS; and the
restart of the management controller, which cuts every command short (R337). -/
namespace Sys2Proof.Machine

/-- Every port a FABRIC_TRAIN named has finished, trained or not (R270). -/
def Dev.trained (d : Dev) (ports : Nat) : Bool :=
  (List.range 24).all fun p => !bit ports p || d.getF fFAB_PORT_STAT_STATE [p] ≠ 1

/-- The work of the long command ends (R320); a commit verifies a body that has been programmed (R347). -/
def Dev.finishLong (d : Dev) (l : LongCmd) (r : HostRead) : Dev :=
  match l.work with
  | .load src len digest => Dev.finishLoad { d with long := none } l.owed src len digest r
  | .verify st => Dev.complete { d with long := none } l.owed st 0
  | .restore b => Dev.finishRestore { d with long := none } l.owed b
  | .commit => if d.flash.programming then d else Dev.finishCommit { d with long := none } l.owed
  | .train ports => if d.trained ports then Dev.complete { d with long := none } l.owed .ok 0 else d

/-- LONG_COMMAND_COMPLETE (R320); `r` is what a host returns where LOAD_IMAGE reads the image again (R327). -/
def execLongCommandComplete (r : HostRead) (s : State) : Host.Outcome State Fault Refusal :=
  s.upd fun _ d => match d.long with | some l => d.finishLong l r | none => d

/-- The long command ends with TIMEOUT (R321, R327). -/
def Dev.timeoutLong (d : Dev) (l : LongCmd) : Dev :=
  match l.work with
  | .load _ _ _ => Dev.failLoad { d with long := none } l.owed .timeout
  | .restore b => Dev.failRestore { d with long := none } l.owed b .timeout
  | .verify _ | .commit | .train _ => Dev.complete { d with long := none } l.owed .timeout 0

/-- LONG_COMMAND_TIMEOUT (R327). -/
def execLongCommandTimeout (s : State) : Host.Outcome State Fault Refusal :=
  s.upd fun _ d => match d.long with | some l => d.timeoutLong l | none => d

/-! ## The management controller -/

/-- What the commands that a restart of the management controller cuts short had not finished is undefined, but for the run state
(R337): a LOAD_IMAGE leaves no image, the bytes of a RESTORE are undefined, a copy of a snapshot is not valid and holds nothing up. -/
def Dev.cutWork (d : Dev) : Dev :=
  let d1 := match d.snapReq with
    | some r => (Dev.dropCopy { d with snapReq := none } r).withHold fun h => { h with snap := false }
    | none => d
  match d.long with
  | some l =>
    (match l.work with
    | .load _ _ _ => { { d1 with long := none } with sched := { d1.sched with image := none } }.enter .ready
    | .restore b => Dev.loseRestore { d1 with long := none } b
    | .verify _ | .commit | .train _ => { d1 with long := none })
  | none => d1

/-- WATCHDOG_EXPIRY: the sequencer restarts the management controller alone (R337). The claim is freed; commands seen and not
completed will complete with TIMEOUT, and the long command among them ends. -/
def execWatchdogExpiry (s : State) : Host.Outcome State Fault Refusal :=
  s.upd fun _ d =>
    if d.run = .off ∨ d.run = .boot ∨ d.boot.restarting then d
    else
      let owed := d.halts ++ (match d.long with | some l => [l.owed] | none => [])
        ++ (match d.snapReq with | some r => [r.owed] | none => [])
        ++ d.flash.ops.filterMap (·.owed)
      let d1 := { d with
        claim := none, halts := [], cut := d.cut ++ owed,
        flash := { d.flash with ops := d.flash.ops.map (fun (f : FlashOp) => { f with owed := none }) },
        boot := { d.boot with restarting := true, fwReady := false } }
      let d2 := d1.count .rHST_WDOG_CNT [] 1
      (if d2.flag fHST_CTL_WDOG_EVENT [] then d2.fire 26 0 else d2).cutWork

/-- MANAGEMENT_RESTART_COMPLETE: the controller is back and the commands it owes complete with TIMEOUT (R337). -/
def execManagementRestartComplete (s : State) : Host.Outcome State Fault Refusal :=
  s.upd fun _ d =>
    if !d.boot.restarting then d
    else
      let owed := d.cut
      let d1 := { d with cut := [], boot := { d.boot with restarting := false, fwReady := true } }
      owed.foldl (fun d o => d.complete o .timeout 0) d1

end Sys2Proof.Machine
end

