-- ==== Sys2Proof/Machine/Boot.lean ====
section
/-! DEFINITION. Power, reset and boot (R339 to R343, R346 to R348, R379, R383). What the board or the hardware supplies to a
boot stage is the stage's operand (log entry 12). -/
namespace Sys2Proof.Machine

/-! ## Into BOOT, and OFF -/

/-- A port before its configuration space is ready; PERST_N stays as the board drives it (R310). -/
def bootPort (p : HostPort) : HostPort := { link := false, perst := p.perst, cfgReady := false }

/-- What a reset or a loss of power leaves: the flash, with every operation on it cut short and a loft that is not COMMITTED set
EMPTY (R347), PERST_N, and nothing of the run, the memories or the registers (R358, R383). -/
def Dev.afterPower (d : Dev) (st : PartState) (pin : Bool) : Dev :=
  let f := d.flash
  let keep : Bool := f.loft = .committed
  let flash : Flash := { f with
    loft := if keep then .committed else .empty, loftHdr := if keep then f.loftHdr else []
    loftBody := if keep then f.loftBody else [], ops := [], active := {} }
  let d1 : Dev :=
    { run := st, portA := bootPort d.portA, portB := bootPort d.portB, flash := flash,
      boot := { stage := 0, resetPin := pin, fwReady := false, fmtInUse := 0 },
      nonce := d.nonce, gen := d.gen, snaps := d.snaps, out := d.out }
  (d1.setWord .rHST_SEQ [] 0).setWord .rSEC_BOOT [] 0

/-- POWER_UP: the supplies come up with RESET_N held low, and the part enters BOOT (R341, R382). -/
def execPowerUp (s : State) : Host.Outcome State Fault Refusal :=
  s.upd fun _ d => if d.run = .off then d.afterPower .boot false else d

/-- RESET_N: the board asserts its reset (R341). -/
def execResetN (s : State) : Host.Outcome State Fault Refusal := s.upd fun _ d => d.afterPower .boot false

/-- RESET_RELEASE: the boot stages begin; TEST_MODE is as the board ties it (R341, R379). -/
def execResetRelease (testMode : Bool) (s : State) : Host.Outcome State Fault Refusal :=
  s.upd fun _ d =>
    if d.run ≠ .boot ∨ d.boot.resetPin then d
    else { d with boot := { d.boot with resetPin := true, testMode := testMode } }

/-- POWER_LOSS: VDDM, VTC or VIO18 is lost (R383). -/
def execPowerLoss (s : State) : Host.Outcome State Fault Refusal := s.upd fun _ d => d.afterPower .off false

/-! ## Firmware -/

/-- The ROM key that signed a firmware object, if the object verifies (R346). -/
def Dev.firmwareKey (d : Dev) (hdr body : List Nat) : Option Nat :=
  if d.headerOk hdr && field hdr 0x0D 1 = 1 && decide (d.cfg.minSvn ≤ field hdr 0x10 2) &&
      decide (body.length = field hdr 0x18 8) && Config.sm3 body = (hdr.drop 0x28).take 32 then
    match d.romKeyFor (field hdr 0x20 8) with
    | some k => if headerSigned hdr (Config.romKey k) then some k else none
    | none => none
  else none

/-- The boot stops: it stays in BOOT (R342). -/
def Dev.bootFail (d : Dev) (code : Nat) : Dev :=
  { d.setF fSEC_BOOT_FAIL [] code with boot := { d.boot with stopped := true } }

/-- Stage 2: the part record (R340, R342). -/
def Dev.readRecord (d : Dev) (part : PartRecord) : Dev :=
  if part.verifies then { d with cfg := part } else d.bootFail 1

/-- Stage 3: a COMMITTED loft is verified, copied and the copy verified; `ok` is false for a flash error in the copy (R342,
R347). -/
def Dev.copyLoft (d : Dev) (ok : Bool) : Dev :=
  let f := d.flash
  if (d.firmwareKey f.loftHdr f.loftBody).isNone then
    Dev.setF (d.setF fSEC_BOOT_FAIL [] 3) fSEC_BOOT_COPY [] 2 |> fun d =>
      { d with flash := { f with loft := .empty, loftHdr := [], loftBody := [] } }
  else if !ok then d.bootFail 4
  else
    { d.setF fSEC_BOOT_COPY [] 1 with flash :=
        { f with activeHdr := f.loftHdr, activeBody := f.loftBody, loft := .empty, loftHdr := [], loftBody := [] } }

/-- Stage 4: the active firmware (R342, R346, Table 17-11). -/
def Dev.startFirmware (d : Dev) : Dev :=
  let hdr := d.flash.activeHdr
  match d.firmwareKey hdr d.flash.activeBody with
  | none => d.bootFail 2
  | some k =>
    (((d.setF fSEC_FW_VERSION [] (field hdr 0x0E 2)).setF fSEC_FW_SVN [] (field hdr 0x10 2)).setF fSEC_FW_MIN_SVN []
      d.cfg.minSvn).setF fSEC_FW_KEY [] k

/-- Stage 5: whether the derived key matches the certificate (R343). -/
def Dev.deriveIdentity (d : Dev) (ok : Bool) : Dev :=
  if ok then d.setF fSEC_ID_VALID [] 1
  else ((d.setF fSEC_ID_VALID [] 0).setF fSEC_ID_FAIL [] 1).setF fSEC_BOOT_FAIL [] 5

/-! ## Settings -/

/-- The copy with the higher generation whose digest verifies, and whether it is B (R348). -/
def Flash.best (f : Flash) : Option (SettingsCopy × Bool) :=
  match f.copyA.verifies, f.copyB.verifies with
  | false, false => none
  | true, false => some (f.copyA, false)
  | false, true => some (f.copyB, true)
  | true, true => if f.copyA.gen < f.copyB.gen then some (f.copyB, true) else some (f.copyA, false)

/-- Stage 6: settings (R348), then the configuration spaces and FW_READY. -/
def Dev.loadSettings (d : Dev) : Dev :=
  let f := d.flash
  let fmt := field f.activeHdr 0x12 2
  let found := match f.best with | some (c, _) => c.fmt | none => 0
  let reset := decide (found ≠ fmt) || f.best.isNone
  let data : Settings := match f.best with
    | some (c, _) => if c.fmt = fmt then c.data else { owner := c.data.owner, images := c.data.images }
    | none => {}
  let gen := max f.copyA.gen f.copyB.gen
  let flash : Flash :=
    if reset then
      { f with active := data, copyA := ⟨true, fmt, gen + 1, data⟩, copyB := ⟨true, fmt, gen + 2, data⟩ }
    else { f with active := data }
  let toB := match f.best with | some (_, b) => reset || b | none => true
  let word := fmt % 65536 * 2 ^ 48 + found % 65536 * 2 ^ 32 + b2n reset * 2 ^ 31 + b2n toB * 2 ^ 30 +
    b2n data.owner.isSome * 2 ^ 29 + data.images.length % 16
  let d1 := ({ d with flash := flash }.setWord .rSEC_SETTINGS [] (BitVec.ofNat 64 word))
  let d2 := (List.range 8).foldl (fun d k =>
    d.setWord .rSEC_IMGKEY [k] (BitVec.ofNat 64 (match data.images[k]? with | some e => e.id | none => 0))) d1
  let ready (x : HostPort) : HostPort := { x with cfgReady := true }
  { d2 with
    portA := ready d2.portA, portB := ready d2.portB
    sideband := { d2.sideband with eid := data.eid }
    boot := { d2.boot with
      fwReady := true, fmtInUse := fmt
      resetEvent := if reset then some (found % 65536 + fmt % 65536 * 2 ^ 16 + b2n f.best.isNone * 2 ^ 32) else none } }

/-! ## The part record applied -/

/-- Stage 7 for one yard: failed routers and positions, and resting positions (R102, R113, R265). -/
def Dev.applyYard (d : Dev) (y : Nat) : Dev :=
  let r := d.cfg.yard y
  let d1 := ((d.setF fRING_REST_REST0 [y] r.rest0).setF fRING_REST_REST1 [y] r.rest1).setF fRING_STAT_FENCED [y]
    (Nat.lor (d.getF fRING_STAT_FENCED [y]) (r.failedM % 2 ^ 18))
  if r.failedRouters = 0 then d1
  else (d1.setWord .rNOC_FAILED [y] (BitVec.ofNat 64 (r.failedRouters % 2 ^ 48))).rewriteRoutes y

/-- Stage 7: everything the part record gives the registers, the enabled domains, and the rails at OP0 (R340, R299). -/
def Dev.applyRecord (d : Dev) : Dev :=
  let c := d.cfg
  let on := BitVec.ofNat 64 (Nat.lor (c.domains % 2 ^ 40) (3 * 2 ^ 34))
  let d1 := (((d.setF fDEV_IDENT_STEPPING [] (b2n c.steppingB0)).setWord .rDEV_SERIAL [] (BitVec.ofNat 64 c.serial)).setWord
    .rCLK_PD_CTL [] on).setWord .rCLK_PD_STAT [] on
  let d2 := (List.range 4).foldl (fun d i =>
    d.setWord .rSCH_NATIVE [i] (BitVec.ofNat 64 (pack16 (((if c.steppingB0 then nativeB0 else nativeA0).drop (4 * i)).take 4)))) d1
  let d3 := (List.range 24).foldl (fun d p => d.setF fFAB_PORT_EQ_FFE_PRESET [p] c.preset) d2
  ([0, 1, 2, 3].foldl Dev.applyYard d3).assign.setRails

/-! ## Memory training -/

/-- The highest supported rate that a module declares, as MEM_STAT codes it (R216, Table 11-7). -/
def spdRate (m : Spd) : Nat := if m.r6400 then 3 else if m.r5600 then 2 else if m.r4800 then 1 else 0

/-- A module within Table 11-2. -/
def spdSupported (m : Spd) : Bool :=
  m.rdimm && (m.ranks = 1 || m.ranks = 2) && (m.high = 1 || m.high = 2) && (m.width = 4 || m.width = 8) && m.data = 32 &&
    m.check = 8 && [32, 64, 96, 128, 256].contains m.gib.toNat && spdRate m ≠ 0

/-- MEM_STAT and MEM_CAL of a controller after training: capacity 0 for one that failed (R7, R215, R216). -/
def Dev.setTier (d : Dev) (u gib rate margin : Nat) (on : Bool) : Dev :=
  let stat := if gib = 0 then 2 ^ 52 else gib * 2 ^ 32 + rate * 2 ^ 48
  let d1 := d.setWord .rMEM_STAT [u] (BitVec.ofNat 64 (stat + b2n (!on) * 2 ^ 53))
  let d2 := d1.setF fMEM_CAL_MARGIN [u] (if gib = 0 then 0 else margin)
  if gib ≠ 0 ∧ margin < 8 then d2.setF fMEM_STAT_MARGIN_LOW [u] 1 else d2

/-- Stage 8: which stacks train, what each module's serial presence detect says, the eye margins, and the bridge lanes that train
(R215, R216, R227, R263). -/
def Dev.trainMemories (d : Dev) (present : BitVec 12) (modules : List (Option Spd)) (margins : BitVec 160) (lanes : BitVec 24) : Dev :=
  let margin (u : Nat) : Nat := bits margins.toNat (8 * u + 7) (8 * u)
  let d1 := (List.range 12).foldl (fun d s =>
    let u := stackCtl s
    d.setTier u (if bit present.toNat s then 48 else 0) 8 (margin u) (d.domainOn (8 * (s / 3) + 5))) d
  let d2 := (List.range 8).foldl (fun d c =>
    let u := chanCtl c
    match (nth none modules c).filter spdSupported with
    | some m => d.setTier u m.gib.toNat (spdRate m) (margin u) (d.domainOn (8 * (c / 2) + 6))
    | none => d.setTier u 0 0 (margin u) (d.domainOn (8 * (c / 2) + 6))) d1
  let wide (c : Nat) : Bool := match nth none modules c with | some m => m.width = 8 | none => false
  let d2 := { d2 with wide8 := (List.range 8).filter wide }
  (List.range 4).foldl (fun d k =>
    d.setBridge k (if d.domainOn (36 + k) then bits lanes.toNat (6 * k + 5) (6 * k) else 0)) d2

/-! ## READY -/

/-- Stage 9: on-chip memory reads 0, and the part enters READY: the STATE event, the SETTINGS_RESET event, and the fabric ports
begin to train (R199, R269, R341, R348). -/
def Dev.becomeReady (d : Dev) : Dev :=
  let (ms, d0) := d.fresh 32
  let d1 := ([0, 1, 2, 3].foldl Dev.zeroYard (d0.setF fSEC_BOOT_BOOT_MS [] ms)).enter .ready
  let d2 := match d1.boot.resetEvent with
    | some v => d1.event .all 0x05 .settingsReset v
    | none => d1
  let d3 : Dev := { d2 with boot := { d2.boot with resetEvent := none } }
  (List.range 24).foldl (fun d p => d.trainPort p false) d3

/-! ## The stages -/

/-- The stage that completes next: stage 3 is run only where the loft is COMMITTED (Table 17-2). -/
def Dev.nextStage (d : Dev) : Nat :=
  if d.boot.stage = 2 ∧ d.flash.loft ≠ .committed then 4 else d.boot.stage + 1

/-- The stage's own work; SCH_TC starts at stage 1 with an arbitrary count (R7, R42). -/
def Dev.bootWork (d : Dev) (n : Nat) (part : PartRecord) (ok : Bool) (present : BitVec 12) (modules : List (Option Spd))
    (margins : BitVec 160) (lanes : BitVec 24) : Dev :=
  if n = 1 then
    let (t, d1) := d.fresh 64
    d1.withSched fun s => { s with tc := t, mark := t / 8192 }
  else if n = 2 then d.readRecord part
  else if n = 3 then d.copyLoft ok
  else if n = 4 then d.startFirmware
  else if n = 5 then d.deriveIdentity ok
  else if n = 6 then d.loadSettings
  else if n = 7 then d.applyRecord
  else if n = 8 then d.trainMemories present modules margins lanes
  else d.becomeReady

/-- BOOT_STAGE_COMPLETE (R341): the next stage of Table 17-2 finishes, unless the boot has stopped or RESET_N is low. With
TEST_MODE high the part does not become READY (R379). -/
def execBootStageComplete (ok : Bool) (present : BitVec 12) (modules : List (Option Spd)) (margins : BitVec 160) (lanes : BitVec 24)
    (s : State) : Host.Outcome State Fault Refusal :=
  s.upd fun part d =>
    if d.run ≠ .boot ∨ d.boot.stopped ∨ !d.boot.resetPin ∨ d.boot.stage ≥ 9 ∨ (d.boot.testMode ∧ d.nextStage = 9) then d
    else
      let n := d.nextStage
      let d1 := d.bootWork n part ok present modules margins lanes
      if d1.boot.stopped then d1
      else { d1.setF fSEC_BOOT_STAGE [] n with boot := { d1.boot with stage := n } }

end Sys2Proof.Machine
end

