-- ==== Sys2Proof/Machine/Drain.lean ====
section
/-! DEFINITION. The drain path (04, 06): the profile, origins and side entries a drain reads at issue (R89, R120, R122, R182),
the activation functions and their derivatives (R90, R123, R124), dropout (R91, R125), side outputs (R121, R122), narrowing and
block scales (R65, R66), destinations (R92, R93, R119), the scale tracker's part (R69) and the checksum verdict (R95 to R97). -/
namespace Sys2Proof.Machine

/-! ## Activation functions -/

/-- FUNC on a finite nonzero value, for the functions within 4 units in the last place (Table 4-6). -/
def actReal (func : Nat) (x : Val) : Val :=
  let v := toFx x
  if func = 4 then ofFxS x.negative (fxMul v (fxPhi v))
  else if func = 5 then ofFxS x.negative (fxMul v (fxOne + fxTanh (geluArg v)) / 2)
  else if func = 6 then ofFxS x.negative (fxMul v (fxSig v))
  else if func = 8 then ofFxS x.negative (fxTanh v)
  else ofFxS false (fxSig v)

/-- FUNC of Table 4-6: the FP32 result and its flags. -/
def activate (func k x : Nat) : Nat × Flags :=
  let v := val32 x
  let pos := !v.negative && !v.isZero
  if v.isNan then (0x7FC00000, {})
  else if func = 0 then (x, {})
  else if func = 1 then (if pos then x else 0, {})
  else if func = 2 then
    if pos then (x, {}) else if (val32 k).isZero then (0, {})
    else let r := (val32 k).mul v; (r.toFp32, flags32 [val32 k, v] r)
  else if func = 3 then (fmin 0x3F800000 (fmax 0xBF800000 x), {})
  else if func = 7 then
    let m := if pos then v else .fin false 0 0
    let r := m.mul m
    (r.toFp32, flags32 [m] r)
  else
    match v with
    | .inf n =>
      (if func = 8 then (if n then 0xBF800000 else 0x3F800000)
        else if func = 9 then (if n then 0 else 0x3F800000)
        else if n then 0x80000000 else 0x7F800000, {})
    | _ =>
      if v.isZero then (if func = 9 then 0x3F000000 else x, {})
      else
        let r := actReal func v
        (approxTo func 4 x r, { uf := r.under32 })

/-- The derivative factor of the value functions at a side value (Table 6-5, R124). -/
def factor (func x : Nat) : Nat :=
  let v := val32 x
  let f := toFx v
  if func = 7 then (if v.negative ∨ v.isZero then 0 else (v.scale 1).toFp32)
  else
    match v with
    | .nan => 0x7FC00000
    | .inf n => if func = 8 then fsub 0x3F800000 (fmul x x) else if func = 9 then fmul x (fsub 0x3F800000 x)
        else if n then 0 else 0x3F800000
    | .fin _ _ _ =>
      let r : Int :=
        if func = 4 then fxPhi f + fxMul f (fxDens f)
        else if func = 5 then
          let t := fxTanh (geluArg f)
          (fxOne + t) / 2 + fxMul (fxMul f (fxOne - fxMul t t)) (geluArg' f) / 2
        else if func = 6 then let s := fxSig f; fxMul s (fxOne + fxMul f (fxOne - s))
        else if func = 8 then fxOne - fxMul f f
        else fxMul f (fxOne - f)
      if r = 0 then 0 else approxTo (16 + func) 4 x (ofFx r)

/-- Functions whose side output is a value (Table 6-4). -/
def valueFunc (func : Nat) : Bool := 4 ≤ func && func ≤ 9

/-- REGION of Table 6-4; a NaN has REGION 1. -/
def region (func x : Nat) : Bool :=
  let v := val32 x
  if v.isNan then true
  else if func = 1 ∨ func = 2 then !v.negative && !v.isZero
  else if func = 3 then orderKey 0xBF800000 < orderKey x && orderKey x < orderKey 0x3F800000
  else true

/-- Stage 4 in derivative mode (R123, R124): `side` is the stored value or the REGION bit. -/
def derive (func k g : Nat) (value : Bool) (side : Nat) : Nat × Flags :=
  let v := val32 g
  if value then
    if (val32 side).isNan then (0x7FC00000, {})
    else
      let f := val32 (factor func side)
      let r := v.mul f
      (r.toFp32, flags32 [v, f] r)
  else if v.isNan then (0x7FC00000, {})
  else if func = 0 ∨ side = 1 then (g, {})
  else if func = 2 ∧ !(val32 k).isZero then
    let r := (val32 k).mul v
    (r.toFp32, flags32 [val32 k, v] r)
  else (0, {})

/-! ## Profiles, side entries, origins -/

/-- A field of a drain profile (Table 4-7) or of a side entry (Table 6-3). -/
def fieldOf (b : List Nat) (o n : Nat) : Nat := leNat ((b.drop o).take n)

/-- Origin after one paddock of an extent (R122). -/
def advance (walk : Bool) (rows cols er ec : Nat) (o : Nat × Nat) : Nat × Nat :=
  let (r0, c0) := o
  if !walk then
    let c1 := c0 + ec
    let (c2, r2) := if c1 ≥ cols then (0, r0 + er) else (c1, r0)
    (if r2 ≥ rows then 0 else r2, c2)
  else
    let r1 := r0 + er
    let (r2, c2) := if r1 ≥ rows then (0, c0 + ec) else (r1, c0)
    (r2, if c2 ≥ cols then 0 else c2)

/-- Origin of paddock `p` of a drain. -/
def originAt (walk : Bool) (rows cols er ec : Nat) (o : Nat × Nat) : Nat → Nat × Nat
  | 0 => o
  | p + 1 => advance walk rows cols er ec (originAt walk rows cols er ec o p)

/-- Extent of a paddock (R122). -/
def extent (sh : Shape) (orient : Bool) : Nat × Nat := if orient then (sh.cols, sh.rows) else (sh.rows, sh.cols)

/-- Array element of a paddock's row and column (R122). -/
def mapElem (orient : Bool) (o : Nat × Nat) (r c : Nat) : Nat × Nat := if orient then (o.1 + c, o.2 + r) else (o.1 + r, o.2 + c)

/-- Whether every paddock's tile lies within the array. -/
def tilesFit (sh : Shape) (walk orient : Bool) (rows cols : Nat) (o : Nat × Nat) : Bool :=
  let (er, ec) := extent sh orient
  (List.range sh.paddocks).all fun p =>
    let q := originAt walk rows cols er ec o p
    q.1 + er ≤ rows && q.2 + ec ≤ cols

/-- Walks of an engine, in section order (R182, R194). -/
def Dev.walks (d : Dev) (e : MEng) : List WalkRec :=
  match d.sched.image with
  | some im => im.walks.filter fun w => w.yard = e.yard.val ∧ w.eng = e.idx.val
  | none => []

/-- Whether the profile and side entry define a result (R3, R89, R90, R120, R121). -/
def drainDefined (f : MdrnF) (pr : List Nat) (side : Option (List Nat)) (count : Nat) : Bool :=
  let ts := signed 8 (fieldOf pr 0x14 1)
  let bf := fieldOf pr 0x1C 1
  let k := val32 (fieldOf pr 4 4)
  let func := f.func.toNat
  let kOk := func ≠ 2 || (match k with | .fin n m _ => !n || m == 0 | .nan | .inf _ => false)
  let sideOk := match side with
    | none => true
    | some b =>
      let kind := fieldOf b 8 1
      let vf := fieldOf b 9 1
      fieldOf pr 0x1D 1 ≤ count && 1 ≤ kind && kind ≤ 4 && (kind ≤ 2 || vf ≤ 4) &&
        (if kind ≤ 2 then !valueFunc func else valueFunc func || (func = 0 && !bit (fieldOf b 10 1) 0)) &&
        1 ≤ fieldOf b 4 2 && 1 ≤ fieldOf b 6 2 && fieldOf b 0 4 % 256 = 0
  decide (-126 ≤ ts) && (bf = 0 || bf = 1 || bf = 0xFF) && kOk && sideOk && fieldOf pr 0x17 1 ≤ 2

/-- Origin of a side entry or walk, and its update unless a SORG took effect in this sc (R182). -/
def originOf (t : List (Nat × Nat × Nat)) (k : Nat) : Nat × Nat := Tab.get (0, 0) t k

/-- MDRN (R89, R92, R122, R181, R182). -/
def execMdrn (e : MEng) (f : MdrnF) (ecc : Ecc) (s : State) : Host.Outcome State Fault Refusal :=
  s.upd fun _ d =>
    let y := e.yard.val
    let idx := [y, e.idx.val]
    let addr := if f.dest = 0 then f.aoff.toNat % 4 else (d.mb e f.abase.toNat + f.aoff.toNat) % 2 ^ 27
    let vi := [y, e.idx.val / 2]
    let slot := (d.word .rENG_VSLOT vi).toNat
    if f.dest = 0 ∧ bit slot (8 * addr + 7) then (d.violation 3 y 0 (d.mPos e)).stopUnit (mNo e)
    else
      let d0 := if f.dest = 0 then
          d.setWord .rENG_VSLOT vi
            (BitVec.ofNat 64 (putBits (putBits slot (8 * addr + 7) (8 * addr + 7) 1) (8 * addr + 6) (8 * addr + 6) (e.idx.val % 2)))
        else d
      let (pr, d1) := (d0.strike ecc (onchipAddr y 1 e.idx.val (f.profile.toNat * 64))).gather (d0.mFault e) y 1 e.idx.val
        ((List.range 64).map fun i => f.profile.toNat * 64 + i)
      let sideNo := fieldOf pr 0x1D 1
      let (side, d2) : Option (List Nat) × Dev :=
        if sideNo = 0 then (none, d1)
        else
          let b := d1.getF fENG_MSIDE_BASE idx + 16 * (sideNo - 1)
          let (bs, d2) := d1.gather (d1.mFault e) y 1 e.idx.val ((List.range 16).map fun i => b + i)
          (some bs, d2)
      let sideRow := match side with
        | some _ => rowsOf 1 [d1.getF fENG_MSIDE_BASE idx + 16 * (sideNo - 1)]
        | none => []
      let (access, d2) := d2.present y 1 e.idx.val false 3 0 true (f.profile.toNat * 64 :: sideRow)
      let m := d2.m e
      let acc := if f.acc then m.accB else m.accA
      let sh := shapeOf acc.shape
      let ws := d2.walks e
      let w := (List.range ws.length).findSome? fun i =>
        match ws[i]? with
        | some w => if w.tid = fieldOf pr 0x0E 2 then some (i, w) else none
        | none => none
      let sOrg := originOf m.sideOrg sideNo
      let wOrg := match w with | some (i, _) => originOf m.walkOrg i | none => (0, 0)
      let sb := side.getD []
      let sMode := fieldOf sb 10 1
      let sRows := fieldOf sb 4 2 * 32
      let sCols := fieldOf sb 6 2 * 32
      let fits := (match side with
          | some _ => tilesFit sh (bit sMode 2) (bit sMode 1) sRows sCols sOrg
          | none => true) &&
        (match w with | some (_, w) => tilesFit sh w.walk w.orient w.rows w.cols wOrg | none => true)
      let early := d.sched.sc ≤ acc.ready && !acc.vals.isEmpty
      let busy := m.drains.any fun x => x.read < 256
      let undef := !drainDefined f pr side (d2.getF fENG_MSIDE_COUNT idx) || !fits || early || busy
      let run : DrainRun :=
        { f := f, addr := addr, issue := d.sched.sc, undef := undef, acc := access, profile := pr, side := side, sideOrg := sOrg,
          walk := w.map (·.2), walkOrg := wOrg, tol := d2.getF fENG_MTOL_TOL_EXP idx, checks := { acc with vals := [] } }
      let now (k : Nat) : Bool := Tab.find m.orgSet k == some d.sched.sc
      let next (walk orient : Bool) (rows cols : Nat) (o : Nat × Nat) : Nat × Nat :=
        let (er, ec) := extent sh orient
        originAt walk rows cols er ec o sh.paddocks
      let m1 : MState :=
        { m with
          drains := m.drains ++ [run]
          sideOrg := if side.isSome && !now sideNo then
              Tab.put (0, 0) m.sideOrg sideNo (next (bit sMode 2) (bit sMode 1) sRows sCols sOrg) else m.sideOrg
          walkOrg := match w with
            | some (i, w) => if now (256 + i) then m.walkOrg
                else Tab.put (0, 0) m.walkOrg i (next w.walk w.orient w.rows w.cols wOrg)
            | none => m.walkOrg }
      (d2.setM e m1).busyUntil (d.sched.sc + 259 + d2.latency 0 + d2.latency 1)

/-! ## One element -/

/-- What a drain needs to know for every element of a row. -/
structure DrainCtx where
  d : Dev
  e : MEng
  r : DrainRun
  sh : Shape
  seed : Nat

def DrainCtx.pf (c : DrainCtx) (o n : Nat) : Nat := fieldOf c.r.profile o n
def DrainCtx.side (c : DrainCtx) (o n : Nat) : Nat := fieldOf (c.r.side.getD []) o n
/-- Derivative mode (R123). -/
def DrainCtx.deriv (c : DrainCtx) : Bool := c.r.side.isSome && bit (c.side 10 1) 0

/-- Logical coordinates of element `n` (R182). -/
def DrainCtx.coords (c : DrainCtx) (n : Nat) : Nat × Nat :=
  let (p, row, col) := c.sh.place n
  match c.r.walk with
  | none => (row, col)
  | some w =>
    let (er, ec) := extent c.sh w.orient
    mapElem w.orient (originAt w.walk w.rows w.cols er ec c.r.walkOrg p) row col

/-- Position of element `n` in the side array (R117, R122). -/
def DrainCtx.sidePos (c : DrainCtx) (n : Nat) : Nat :=
  let (p, row, col) := c.sh.place n
  let mode := c.side 10 1
  let rows := c.side 4 2 * 32
  let cols := c.side 6 2 * 32
  let (er, ec) := extent c.sh (bit mode 1)
  let q := mapElem (bit mode 1) (originAt (bit mode 2) rows cols er ec c.r.sideOrg p) row col
  swizzle rows q.1 q.2

/-- Where the side array begins: BASE without bit 22 (R120). A base beyond tile memory stays there, and its accesses fault. -/
def DrainCtx.sideBase (c : DrainCtx) : Nat := putBits (c.side 0 4) 22 22 0

/-- Byte offsets of element `n`'s side data, and what those bytes hold (R122). -/
def DrainCtx.sideOffs (c : DrainCtx) (n : Nat) : List Nat :=
  let base := c.sideBase
  let q := c.sidePos n
  let kind := c.side 8 1
  if kind = 1 then [base + q / 8] else if kind = 2 then [base + q / 4]
  else (elemOffs (c.side 9 1) q).map fun o => base + o
def DrainCtx.sideData (c : DrainCtx) (n : Nat) (bs : List Nat) : Nat :=
  let q := c.sidePos n
  let kind := c.side 8 1
  if kind = 1 then bs.getD 0 0 / 2 ^ (q % 8) % 2 else if kind = 2 then bs.getD 0 0 / 2 ^ (2 * (q % 4)) % 4
  else widen (c.side 9 1) (elemFrom (c.side 9 1) q bs)

/-- The random number of element `n` (R61, R91). -/
def DrainCtx.random (c : DrainCtx) (n : Nat) : Nat :=
  let (row, col) := c.coords n
  srNumber c.seed (c.pf 0x0E 2) (c.pf 0x10 4) row col

/-- What one element of a drain gives: its value after stage 5, the value entering and leaving stage 4, KEEP, its flags. -/
structure DrainElem where
  out : Nat
  x : Nat
  y : Nat
  keep : Bool
  flags : Flags

/-- Stages 1 to 5 of R89 on one accumulator value, with its bias and side data (R91, R123, R125). -/
def DrainCtx.elem (c : DrainCtx) (n acc bias sideData : Nat) : DrainElem :=
  let al := val32 (c.pf 0 4)
  let t2 := (val32 acc).mul al
  let x2 := t2.toFp32
  let t3 := (val32 x2).add (val32 bias)
  let biased := c.pf 0x1C 1 ≠ 0xFF
  let x3 := if biased then t3.toFp32 else x2
  let func := c.r.f.func.toNat
  let k := c.pf 4 4
  let kind := c.side 8 1
  let (y, f4) := if c.deriv then derive func k x3 (kind ≥ 3) (sideData % 2 ^ 32 % (if kind ≤ 2 then 2 else 2 ^ 32))
    else activate func k x3
  let drawn := decide (c.random n ≥ c.pf 0x0C 2)
  let keep := !c.r.f.drop ||
    (if c.deriv then (if kind = 2 then bit sideData 1 else if kind = 1 then bit sideData 0 else drawn) else drawn)
  let ds := val32 (c.pf 8 4)
  let t5 := ds.mul (val32 y)
  let out := if !c.r.f.drop then y
    else if keep then (if (val32 y).isNan then 0x7FC00000 else t5.toFp32)
    else if (val32 x3).isNan || (c.deriv && kind ≥ 3 && (val32 (sideData % 2 ^ 32)).isNan) then 0x7FC00000 else 0
  let f5 : Flags := if c.r.f.drop && keep then flags32 [ds, val32 y] t5 else {}
  { out := out, x := x3, y := y, keep := keep,
    flags := Flags.all [flags32 [val32 acc, al] t2, if biased then flags32 [val32 x2, val32 bias] t3 else {}, f4, f5] }

/-- Side output of an element: its writes and flags (R121, R122). -/
def DrainCtx.sideOut (c : DrainCtx) (n : Nat) (el : DrainElem) : List (Nat × Nat × Nat) × Flags :=
  let kind := c.side 8 1
  let base := c.sideBase
  let q := c.sidePos n
  let reg := region c.r.f.func.toNat el.x
  if kind = 1 then ([(base + q / 8, 2 ^ (q % 8), b2n (reg && el.keep) * 2 ^ (q % 8))], {})
  else if kind = 2 then
    ([(base + q / 4, 3 * 4 ^ (q % 4), (b2n reg + 2 * b2n el.keep) * 4 ^ (q % 4))], {})
  else
    let (w, fl) := narrow (c.side 9 1) .rne true false (val32 (if kind = 3 then el.x else el.y))
    (elemWrites (c.side 9 1) base q w, fl)

/-! ## Destinations -/

/-- Space, engine and base offset of a drain's data (R92); DEST 4 goes over the network. -/
def DrainCtx.dest (c : DrainCtx) : Nat × Nat × Nat :=
  let k := c.e.idx.val
  if c.r.f.dest = 0 then (4, k / 2, c.r.addr * 0x40000)
  else if c.r.f.dest = 1 then (1, k, c.r.addr)
  else if c.r.f.dest = 4 then (0, 0, c.r.addr)
  else (2, k, c.r.addr)

/-- Whether the destination is in the swizzled view (R118, R119). -/
def DrainCtx.swz (c : DrainCtx) : Bool := c.r.f.dest = 1 && bit c.r.addr 22

/-- Writes of element `n` of the tile with encoding `v`. -/
def DrainCtx.write (c : DrainCtx) (n v : Nat) : List (Nat × Nat × Nat) :=
  let fmt := c.r.f.fmt.toNat
  let (_, _, base) := c.dest
  if c.swz then
    let (p, row, col) := c.sh.place n
    let b := base - 2 ^ 22 + p * fmtBytes fmt (c.sh.rows * c.sh.cols)
    elemWrites fmt b (swizzle c.sh.rows row col) v
  else elemWrites fmt base n v

/-- Offset of the scale of element `n`'s block (R81, R92): after the data of the whole tile, paddock by paddock. -/
def DrainCtx.scaleOff (c : DrainCtx) (n : Nat) : Nat :=
  let fmt := c.r.f.fmt.toNat
  let (p, row, col) := c.sh.place n
  let (_, _, base) := c.dest
  let start := up64 ((if c.swz then base - 2 ^ 22 else base) + fmtBytes fmt 65536)
  if c.pf 0x17 1 = 1 then
    start + p * (c.sh.cols / 32 * up64 c.sh.rows) + col / 32 * up64 c.sh.rows + row
  else start + p * (c.sh.rows / 32 * up64 c.sh.cols) + row / 32 * up64 c.sh.cols + col

/-- Stages 7 and 8 (R65, R66): encodings of elements `n0` on from their values after stage 5, with the scale of each block
by its first element, and the flags. Blocks run along rows (1) or along columns (2) of the tile. Blocks of a format that takes none,
or of 32 rows in THIN, in a profile the loader could not see, have results the spec does not give: free values (R62, R92). -/
def DrainCtx.encode (c : DrainCtx) (n0 : Nat) (vals : List Nat) : List Nat × List (Nat × Nat) × Flags :=
  let fmt := c.r.f.fmt.toNat
  let ts := signed 8 (c.pf 0x14 1)
  let v (i : Nat) : Val := (val32 (nth 0 vals i)).scale ts
  let mode (i : Nat) : Mode := modeOf c.r.f.rm.toNat (if c.r.f.rm = 2 then c.random (n0 + i) else 0)
  let blk := c.pf 0x17 1
  if blk = 0 then
    let r := (List.range vals.length).map fun i => narrow fmt (mode i) c.r.f.sat false (v i)
    (r.map (·.1), [], Flags.all (r.map (·.2)))
  else if !scaleOk fmt || (blk = 2 && c.sh.rows % 32 ≠ 0) then
    ((List.range vals.length).map fun i => Config.freeWord (c.d.nonce + 256 + i) % 2 ^ fmtBits fmt,
     (List.range (vals.length / 32)).map fun b => (n0 + 32 * b, Config.freeWord (c.d.nonce + 256 + vals.length + b) % 256), {})
  else
    let step := if blk = 1 then 1 else c.sh.cols
    let starts := if blk = 1 then (List.range (vals.length / 32)).map fun b => 32 * b else List.range c.sh.cols
    let bs := starts.map fun s =>
      let ix := (List.range 32).map fun k => s + k * step
      (s, ix, blockScale fmt (fun k => mode (nth 0 ix k)) (ix.map v))
    let codes := bs.foldl (fun t b => (List.zip b.2.1 b.2.2.2.1).foldl (fun t iv => Tab.insert t iv.1 iv.2) t) []
    (codes.map (·.2), bs.map fun b => (n0 + b.1, b.2.2.1), Flags.all (bs.map fun b => b.2.2.2.2))

/-- Hand the flits of a run of bytes to the network from a drain path (R257): slot `j` goes to port j mod 2 in half j / 2 of
the sc, four to an sc. -/
def Dev.drainFlits (d : Dev) (e : MEng) (lat off : Nat) (bs : List Nat) : Dev :=
  (List.range (ceilDiv bs.length 256)).foldl (fun d j =>
    d.handFlit e.yard.val e.idx.val (j % 2) (j / 2 % 2) (lat + 2 + j / 4) (.mem (some e.yard.val) 0 0xFF (off + 256 * j))
      (((bs.drop (256 * j)).take 256).map some)) d

/-- Send encodings of elements `n0` on to the destination, `lat` sc after now out of the activation unit (R92, R119). -/
def DrainCtx.send (c : DrainCtx) (d : Dev) (lat n0 : Nat) (codes : List Nat) (scales : List (Nat × Nat)) : Dev :=
  let y := c.e.yard.val
  let fmt := c.r.f.fmt.toNat
  let (space, k, base) := c.dest
  let f := d.mFault c.e
  let xfer := d.latency 1
  if c.r.f.dest = 3 then
    let off := base + 4 * n0
    if off + 4 * codes.length > spaceSize 2 then d.boundsFault f (onchipAddr y 2 k off)
    else
      match d.checkAccess (onchipAddr y 2 k off) (4 * codes.length) with
      | .good => d.deliver (lat + xfer) (.offer y 2 k 0 0 (.accum (onchipAddr y 2 k off) codes))
      | .fenced y => d.count .rOCM_FENCED_DROP [y] 1
      | .bounds => d.boundsFault f (onchipAddr y 2 k off)
  else if c.r.f.dest = 4 then
    let rows := codes.length / 256
    let d1 := (List.range rows).foldl (fun d i =>
      d.drainFlits c.e (lat + i) (base + fmtBytes fmt (n0 + 256 * i)) (packElems fmt ((codes.drop (256 * i)).take 256))) d
    let m := d1.m c.e
    d1.setM c.e { m with drains := m.drains.map fun x =>
      if x.issue = c.r.issue then { x with scales := x.scales ++ scales.map (·.2) } else x }
  else
    let ws := (List.range codes.length).flatMap fun i => c.write (n0 + i) (nth 0 codes i)
    let ss := scales.map fun s => (c.scaleOff s.1, 255, s.2)
    d.scatterTo f y space k (lat + xfer) (ws ++ ss)

/-- The drain whose next row is to be read, with its place in the list (R85, R126). -/
def Dev.rowReadDue (d : Dev) (e : MEng) : Option (Nat × DrainRun) :=
  let ds := (d.m e).drains
  (List.range ds.length).findSome? fun i =>
    match ds[i]? with
    | some r => if !d.isStopped (mNo e) ∧ r.read < 256 ∧ r.issue + r.read ≤ d.sched.sc then some (i, r) else none
    | none => none

/-- The drain whose next row can pass: it has been read, and its side reads are complete. -/
def Dev.rowDue (d : Dev) (e : MEng) : Option (Nat × DrainRun × Nat × Option Nat × List Nat) :=
  let ds := (d.m e).drains
  (List.range ds.length).findSome? fun i =>
    match ds[i]? with
    | some r =>
      match r.rows with
      | (t, a, raw) :: _ =>
        if !d.isStopped (mNo e) && (match a with | some n => (d.delayOf n).2 | none => true) then some (i, r, t, a, raw) else none
      | [] => none
    | none => none

/-- What a drain of an engine works with. -/
def Dev.drainCtx (d : Dev) (e : MEng) (r : DrainRun) : DrainCtx :=
  let m := d.m e
  ⟨d, e, r, shapeOf (if r.f.acc then m.accB else m.accA).shape, d.seed⟩

/-- A row of a drain is read: 256 accumulator values, and in derivative mode its side data on the drain port (R85, R126, R202). -/
def Dev.readRow (d : Dev) (e : MEng) (ecc : Ecc) (i : Nat) (r : DrainRun) : Dev :=
  let y := e.yard.val
  let c := d.drainCtx e r
  let m := d.m e
  let acc := if r.f.acc then m.accB else m.accA
  let raw := (List.range 256).map fun k => nth 0 acc.vals (256 * r.read + k)
  let offs := if c.deriv then (List.range 256).flatMap fun k => c.sideOffs (256 * r.read + k) else []
  let d0 := match offs with | o :: _ => d.strike ecc (onchipAddr y 1 e.idx.val o) | [] => d
  let (a, d1) := if offs.isEmpty then (none, d0)
    else let p := d0.present y 1 e.idx.val false 3 0 true (rowsOf 1 offs); (some p.1, p.2)
  let m1 := d1.m e
  d1.setM e { m1 with drains := setNth m1.drains i { r with read := r.read + 1, rows := r.rows ++ [(d.sched.sc, a, raw)] } }

/-- The elements `n0` on of a drain, from accumulator values, with their biases and side data (R89, R123). -/
def DrainCtx.elems (c : DrainCtx) (d : Dev) (n0 : Nat) (raw : List Nat) : List DrainElem × Dev :=
  let y := c.e.yard.val
  let ns := (List.range raw.length).map fun k => n0 + k
  let bf := if c.pf 0x1C 1 = 1 then 1 else 0
  let (biasB, d1) := if c.pf 0x1C 1 = 0xFF then ([], d)
    else d.gather (d.mFault c.e) y 1 c.e.idx.val (ns.flatMap fun n => (elemOffs bf (c.sh.place n).2.2).map fun o => c.pf 0x18 4 + o)
  let bw := if bf = 1 then 2 else 4
  let bias (k : Nat) : Nat := if biasB.isEmpty then 0 else widen bf (leNat ((biasB.drop (bw * k)).take bw))
  let offs := if c.deriv then ns.map c.sideOffs else []
  let (sideB, d2) := if c.deriv then d1.gather (d1.mFault c.e) y 1 c.e.idx.val offs.flatten else ([], d1)
  let ow := (nth [] offs 0).length
  ((List.range raw.length).map fun k =>
    c.elem (n0 + k) (nth 0 raw k) (bias k) (c.sideData (n0 + k) ((sideB.drop (ow * k)).take ow)), d2)

/-- Values of elements that leave stage 6, free where the drain's results are not defined (R3). -/
def DrainCtx.outs (c : DrainCtx) (d : Dev) (els : List DrainElem) : List Nat × Dev :=
  ((List.range els.length).map fun k =>
    if c.r.undef then Config.freeWord (d.nonce + k) % 2 ^ 32 else (nth ⟨0, 0, 0, true, {}⟩ els k).out,
   { d with nonce := d.nonce + els.length })

/-- Elements of a strip whose block scales are formed together: 32 rows of the tile where blocks run along columns (R65, R92). The rows
still to be read are looked ahead, so that each row leaves the activation unit in its own cycle (DEDUCED; log entry 78). -/
def DrainCtx.stripLen (c : DrainCtx) : Nat := if c.pf 0x17 1 = 2 ∧ c.sh.rows % 32 = 0 then 32 * c.sh.cols else 256

/-- A row of a drain passes stages 1 to 9 (R85, R89, R92, R126). Side data later than the slack of 4 sc delays it by the excess; a
profile later than that leaves its results undefined (R205; log entry 79). -/
def Dev.passRow (d0 : Dev) (e : MEng) (i : Nat) (r0 : DrainRun) (t : Nat) (a : Option Nat) (raw : List Nat) : Dev :=
  let y := e.yard.val
  let (delay, d) := match a with | some n => ((d0.delayOf n).1, d0.forget n) | none => (0, d0)
  let late := decide ((d.delayOf r0.acc).1 > 4)
  let r := { r0 with undef := r0.undef || late }
  let n0 := 256 * r.next
  let c := d.drainCtx e r
  let (els, d2) := c.elems d n0 raw
  let (outs, d3) := c.outs d2 els
  let lat := d3.latency 0 + (delay - 4) - (d.sched.sc - t)
  let sideW := if r.side.isSome && !c.deriv then
      (List.range 256).map fun k => c.sideOut (n0 + k) (nth ⟨0, 0, 0, true, {}⟩ els k) else []
  let d4 := d3.scatterTo (d3.mFault e) y 1 e.idx.val (lat + d3.latency 1) (sideW.flatMap (·.1))
  let d5 := if bit (c.pf 0x16 1) 0 then d4.deliver (lat + 4) (.track y (c.pf 0x15 1) outs) else d4
  let strip := c.stripLen
  let ahead : List Nat × List (Nat × Nat) × Flags × Dev :=
    if strip = 256 then let x := c.encode n0 outs; (x.1, x.2.1, x.2.2, d5)
    else if n0 % strip = 0 then
      let m := d5.m e
      let acc := if r.f.acc then m.accB else m.accA
      let rest := (List.range (strip - 256)).map fun k => nth 0 acc.vals (n0 + 256 + k)
      let (more, d6) := c.elems d5 (n0 + 256) rest
      let (vals, d7) := c.outs d6 more
      let x := c.encode n0 (outs ++ vals)
      (x.1, x.2.1, x.2.2, d7)
    else (r.held, [], {}, d5)
  let codes := ahead.1.take 256
  let d6 := ahead.2.2.2
  let m6 := d6.m e
  let r' := { r with next := r.next + 1, rows := r.rows.drop 1, raw := r.raw ++ raw, held := ahead.1.drop 256 }
  let d7 := c.send (d6.setM e { m6 with drains := setNth m6.drains i r' }) lat n0 codes ahead.2.1
  let m7 := d7.m e
  let d8 := if r.next = 255 ∧ r.f.dest = 4 then
      match m7.drains[i]? with
      | some x => d7.drainFlits e (lat + 1) (up64 (c.dest.2.2 + fmtBytes r.f.fmt.toNat 65536)) x.scales
      | none => d7
    else d7
  let flags := Flags.all (ahead.2.2.1 :: (els.map (·.flags) ++ sideW.map (·.2)))
  (if r.next = 255 then d8.forget r.acc else d8).mFlags e flags

/-- DRAIN_ROW (R85, R89, R126): `read` reads a drain row of 256 accumulator values with its side data; the other form passes it
through the drain path. -/
def execDrainRow (e : MEng) (read : Bool) (ecc : Ecc) (s : State) : Host.Outcome State Fault Refusal :=
  s.upd fun _ d =>
    if read then
      match d.rowReadDue e with
      | some (i, r) => d.readRow e ecc i r
      | none => d
    else
      match d.rowDue e with
      | some (i, r, t, a, raw) => d.passRow e i r t a raw
      | none => d

/-! ## The checksum verdict -/

/-- Whether a value is neither NaN nor infinite. -/
def finite32 (w : Nat) : Bool := match val32 w with | .fin _ _ _ => true | .nan | .inf _ => false

/-- |S − K| > 2^−TOL × M (R95), and the ratio of ENG_MSDC. -/
def mismatch (tol s k m : Nat) : Bool :=
  match ((val32 s).add (val32 k).neg).abs.add (((val32 m).scale (-(tol : Int))).neg) with
  | .fin n man _ => !n && man ≠ 0
  | .nan | .inf _ => false
def ratio (s k m : Nat) : Nat :=
  if (val32 m).isZero then 0x7F800000
  else (((val32 s).add (val32 k).neg).abs.div (val32 m)).toFp32

/-- The comparison of one row or column: not compared, agrees, or mismatches (R95, R96). -/
def compareLine (tol : Nat) (cells : List Nat) (k m : Nat) : Option (Bool × Nat) :=
  let s := cells.foldl fadd 0
  if finite32 s && finite32 k && finite32 m && cells.all finite32 then some (mismatch tol s k m, ratio s k m) else none

/-- First line that mismatches, with its ratio. -/
def firstBad (l : List (Option (Bool × Nat))) : Option (Nat × Nat) :=
  (List.range l.length).findSome? fun i =>
    match nth none l i with
    | some (true, r) => some (i, r)
    | _ => none

/-- The drain whose verdict has come (R95). -/
def Dev.verdictDue (d : Dev) (e : MEng) : Option DrainRun :=
  (d.m e).drains.find? fun r => r.next = 256 ∧ r.issue + d.latency 0 + 259 ≤ d.sched.sc

/-- CHECKSUM_VERDICT (R95 to R97). -/
def execChecksumVerdict (e : MEng) (s : State) : Host.Outcome State Fault Refusal :=
  s.upd fun _ d =>
    match d.verdictDue e with
    | none => d
    | some r =>
      let y := e.yard.val
      let idx := [y, e.idx.val]
      let sh := shapeOf r.checks.shape
      let cell (p q : Nat) : Nat := nth 0 r.raw (sh.cellAt p q)
      let rows := (List.range 256).map fun p =>
        compareLine r.tol ((List.range 256).map fun q => cell p q) (nth 0 r.checks.rowSum p) (nth 0 r.checks.rowMag p)
      let cols := (List.range 256).map fun q =>
        compareLine r.tol ((List.range 256).map fun p => cell p q) (nth 0 r.checks.colSum q) (nth 0 r.checks.colMag q)
      let skipped := ((rows ++ cols).filter Option.isNone).length
      let d0 := d.setM e { d.m e with drains := (d.m e).drains.erase r }
      let d1 := if skipped = 0 then d0
        else (d0.count .rENG_MSKIP_CNT idx skipped).setF fENG_MSTAT_CHK_SKIP idx 1
      let bad : Option (Nat × Nat × Nat) := match firstBad rows with
        | some (i, t) => some (0, i, t)
        | none => (firstBad cols).map fun x => (1, x.1, x.2)
      match bad with
      | none => d1
      | some (axis, i, t) =>
        let pos := d1.mPos e
        let d2 := (d1.count .rENG_MSDC_CNT idx 1).setF fENG_MSTAT_SDC idx 1
        let d3 :=
          if d2.flag fENG_MSDC_VALID idx then d2.setF fENG_MSDC_MORE idx 1
          else (d2.setWord .rENG_MSDC idx (BitVec.ofNat 64
              (2 ^ 63 + axis * 2 ^ 61 + b2n r.f.acc * 2 ^ 60 + pos * 2 ^ 55 + i * 2 ^ 40 + t))).setWord .rENG_MSDC_SC idx
            (BitVec.ofNat 64 r.issue)
        let d4 := if d3.flag fENG_MCTL_SDC_EVENT idx then d3.fire 3 (32 * y + pos) else d3
        if d4.flag fENG_MCTL_SDC_STOP idx then
          d4.stopFault { code := 2, detail := axis, yard := y, kind := 0, pos := pos, unit := mNo e, stops := some (mNo e) }
        else d4

end Sys2Proof.Machine
end

