-- ==== Sys2Proof/Machine/Monitor.lean ====
section
/-! DEFINITION. The health monitors' commands and samples (R369 to R371, R374). -/
namespace Sys2Proof.Machine

/-- Whether a unit exists for a source (Table 18-6); 0xFF stands for every unit. -/
def monitorUnitOk (source unit : Nat) : Bool :=
  unit = 0xFF ||
  (if source = 1 then decide (unit < 20 ∧ unit % 5 < 3)
   else if source = 2 then decide (unit < 20 ∧ unit % 5 ≥ 3)
   else if source = 3 ∨ source = 4 then decide (unit < 4)
   else if source = 5 ∨ source = 6 then decide (unit < 24)
   else if source = 7 ∨ source = 8 then decide (unit < 16)
   else if source = 9 then decide (unit < 20)
   else decide (unit = 0))

/-- MIN, MAX, SAMPLES and every bin return to their start values (R371). -/
def Dev.clearMonitor (d : Dev) (c : Nat) : Dev :=
  let base := regOffset .rMON_CFG [c]
  { d with regs := Tab.clear d.regs (base + 0x10) (base + 0x100) }

/-- CONFIG_MONITOR (R371); with CLEAR_ONLY set the configuration is not written. -/
def execConfigMonitor (h : Hdr) (channel flags : Byte) (cfg : Word) (limit : BitVec 32) (s : State) :
    Host.Outcome State Fault Refusal :=
  s.upd fun _ d => d.command 0x35 h fun o d =>
    let c := channel.toNat
    let w := cfg.toNat
    let clearOnly := bit flags.toNat 0
    let source := bits w 55 48
    if c > 63 ∨ flags.toNat ≥ 2 then d.complete o .badParam 0
    else if clearOnly then (d.clearMonitor c).complete o .ok 0
    else if source = 0 ∨ source > 12 ∨ !monitorUnitOk source (bits w 47 40) ∨ bits w 36 32 > 24 ∨ bits w 60 56 ≠ 0 ∨
        bits w 39 37 ≠ 0 then d.complete o .badParam 0
    else
      let d1 := (d.setWord .rMON_CFG [c] cfg).setWord .rMON_LIMIT [c] (BitVec.ofNat 64 limit.toNat)
      (d1.clearMonitor c).complete o .ok 0

/-- CLEAR_ONLY: CONFIG_MONITOR that resets a channel's statistics only (R371). -/
def execClearOnly (h : Hdr) (channel : Byte) (s : State) : Host.Outcome State Fault Refusal :=
  s.upd fun _ d => d.command 0x35 h fun o d =>
    if channel.toNat > 63 then d.complete o .badParam 0 else (d.clearMonitor channel.toNat).complete o .ok 0

/-- The 256-byte register block of a channel as BAR2 shows it (R371). -/
def Dev.monitorBlock (d : Dev) (c : Nat) : List Nat :=
  (List.range 32).flatMap fun j =>
    match regAt (0xA000000 + 0x100 * c + 8 * j) with
    | some (r, idx) => leBytes 8 (d.readReg r idx).toNat
    | none => leBytes 8 0

/-- READ_MONITOR (R371). -/
def execReadMonitor (h : Hdr) (channel : Byte) (dst : Word) (s : State) : Host.Outcome State Fault Refusal :=
  s.upd fun _ d => d.command 0x34 h fun o d =>
    let c := channel.toNat
    if c > 63 ∨ (dst.toNat ≠ 0 ∧ !d.windowDest h.src dst.toNat 256) then d.complete o .badParam 0
    else
      let d1 := if dst.toNat = 0 then d else d.writeDest dst.toNat (d.monitorBlock c)
      d1.complete o .ok (d.getF fMON_MINMAX_MIN [c] + d.getF fMON_MINMAX_MAX [c] * 2 ^ 32
        + d.getF fMON_SAMPLES_COUNT [c] * 2 ^ 64)

/-- The hottest junction sensor as last sampled (Table 15-13). -/
def Dev.hottest (d : Dev) : Int :=
  match d.clocks.temps with
  | [] => 0
  | e :: t => t.foldl (fun m x => max m x.2) e.2

/-- MONITOR_SAMPLE: a source of Table 18-6 gives a sample on a unit (R369, R370); a junction temperature also shows in
CLK_THERM.TJ_MAX. -/
def execMonitorSample (source unit : Byte) (value : BitVec 64) (s : State) : Host.Outcome State Fault Refusal :=
  s.upd fun _ d =>
    let v := signed 64 value.toNat
    let d1 := d.sample source.toNat unit.toNat v
    if source.toNat = 8 ∧ unit.toNat < 16 then
      let d2 := { d1 with clocks := { d1.clocks with temps := Tab.insert d1.clocks.temps unit.toNat v } }
      d2.setF fCLK_THERM_TJ_MAX [] (wrap 8 (max (-128) (min 127 d2.hottest)))
    else d1

end Sys2Proof.Machine
end

