-- ==== Sys2Proof/Machine/Packets.lean ====
section
/-! DEFINITION. Command packets (R314, R316, R319, R336): how 64 bytes from a ring or the sideband become a command, and the first
two checks of the arbiter. The other checks are the command's own (R319). -/
namespace Sys2Proof.Machine

/-! ## The packet -/

/-- Parameter bytes that each command's table names, as (offset, length) (R242, R246, R270, R279, R294, R304, R323, R347, R356,
R359, R361, R367, R371). -/
def namedBytes (opc : Nat) : List (Nat × Nat) :=
  if opc = 0x03 then [(0, 1)]
  else if opc = 0x10 ∨ opc = 0x11 ∨ opc = 0x17 then [(0, 8), (8, 8)]
  else if opc = 0x12 then [(0, 8), (8, 1)]
  else if opc = 0x16 then [(0, 8), (8, 8), (0x10, 8), (0x18, 1)]
  else if opc = 0x20 then [(0, 1), (1, 1), (8, 8)]
  else if opc = 0x21 then [(0, 2), (2, 1)]
  else if opc = 0x22 ∨ opc = 0x23 then [(0, 1), (1, 1), (2, 1)]
  else if opc = 0x24 then [(0, 4), (4, 2), (6, 2), (8, 1)]
  else if opc = 0x30 then [(0, 8)]
  else if opc = 0x31 then [(0, 8), (8, 8)]
  else if opc = 0x32 then [(0, 1), (1, 1), (4, 4), (8, 4), (0x10, 8)]
  else if opc = 0x33 then [(0, 1), (8, 8)]
  else if opc = 0x34 then [(0, 1), (8, 8)]
  else if opc = 0x35 then [(0, 1), (1, 1), (8, 8), (0x10, 4)]
  else if opc = 0x40 then [(0, 8)]
  else if opc = 0x41 then [(0, 8), (8, 4), (12, 4)]
  else if opc = 0x60 then [(0, 2), (2, 1), (8, 8), (0x10, 8)]
  else if opc = 0x61 then [(0, 2)]
  else if opc = 0x62 then [(0, 1), (4, 20)]
  else if opc = 0x70 then [(0, 4), (4, 1), (5, 1)]
  else if opc = 0x71 then [(0, 1)]
  else []

/-- A parameter byte that must be 0: at or beyond LEN, or not named (R316). -/
def mustBeZero (opc len i : Nat) : Bool :=
  decide (len ≤ i) || !((namedBytes opc).any fun n => decide (n.1 ≤ i ∧ i < n.1 + n.2))

/-- Check 2 of R319 on the 64 bytes of a packet. -/
def packetOk (b : List Nat) : Bool :=
  let len := nth 0 b 4
  decide (nth 0 b 1 < 2) && decide (len ≤ 48) &&
    (List.range 48).all fun i => !mustBeZero (nth 0 b 0) len i || nth 0 b (16 + i) = 0

/-- A parameter of `n` bytes at an offset of the parameter field. -/
def param (b : List Nat) (o n : Nat) : Nat := field b (16 + o) n

def byteAt (b : List Nat) (o : Nat) : Byte := BitVec.ofNat 8 (param b o 1)
def halfAt (b : List Nat) (o : Nat) : BitVec 16 := BitVec.ofNat 16 (param b o 2)
def quadAt (b : List Nat) (o : Nat) : BitVec 32 := BitVec.ofNat 32 (param b o 4)
def wordAt (b : List Nat) (o : Nat) : Word := BitVec.ofNat 64 (param b o 8)

/-! ## The arbiter -/

/-- A packet that fails check 1 or 2 takes a sequence number and completes with that status (R318, R319). -/
def refusePacket (h : Hdr) (opc : Nat) (st : Status) (s : State) : Host.Outcome State Fault Refusal :=
  s.upd fun _ d => d.arbitrate ⟨opc, false, fun _ => true, false, false⟩ h fun o d => d.complete o st 0

/-- CONFIG_RECORDER by its OP (R367). -/
def runConfigRecorder (h : Hdr) (b : List Nat) (s : State) : Host.Outcome State Fault Refusal :=
  let op := param b 0 1
  if op = 0 then execClear h s
  else if op = 1 then execTrigger h (wordAt b 8) s
  else if op = 2 then execDump h s
  else if op = 3 then execSetDump h (wordAt b 8) s
  else if op = 4 then execGetDump h s
  else s.upd fun _ d => d.command 0x33 h fun o d => d.complete o .badParam 0

/-- Packets of control, status and runs (R323). -/
def runControl (h : Hdr) (opc : Nat) (b : List Nat) (r : HostRead) (s : State) : Host.Outcome State Fault Refusal :=
  if opc = 0x01 then execIdentify h s
  else if opc = 0x02 then execGetStatus h s
  else if opc = 0x03 then execClaim h (byteAt b 0) s
  else if opc = 0x04 then execRelease h s
  else if opc = 0x10 then execLoadImage h (wordAt b 0) (wordAt b 8) r s
  else if opc = 0x11 then execVerifyImage h (wordAt b 0) (wordAt b 8) r s
  else if opc = 0x12 then execStart h (wordAt b 0) (byteAt b 8) s
  else if opc = 0x13 then execHalt h s
  else if opc = 0x14 then execResume h s
  else if opc = 0x15 then execAbort h s
  else if opc = 0x16 then execSnapshotAt h (wordAt b 0) (wordAt b 8) (wordAt b 16) (byteAt b 24) s
  else execRestore h (wordAt b 0) (wordAt b 8) r s

/-- Packets of the machine's settings and registers. -/
def runSettings (h : Hdr) (opc : Nat) (b : List Nat) (s : State) : Host.Outcome State Fault Refusal :=
  if opc = 0x20 then execSetOperatingPoint h (byteAt b 0) (byteAt b 1) (wordAt b 8) s
  else if opc = 0x21 then execSetPowerLimit h (halfAt b 0) (byteAt b 2) s
  else if opc = 0x22 then execFenceEngine h (byteAt b 0) (byteAt b 1) (byteAt b 2) s
  else if opc = 0x23 then execUnfenceEngine h (byteAt b 0) (byteAt b 1) (byteAt b 2) s
  else if opc = 0x24 then execSetMembership h (quadAt b 0) (halfAt b 4) (halfAt b 6) (byteAt b 8) s
  else if opc = 0x30 then execReadReg h (wordAt b 0) s
  else if opc = 0x31 then execWriteReg h (wordAt b 0) (wordAt b 8) s
  else if opc = 0x32 then execReadRecorder h (byteAt b 0) (byteAt b 1) (quadAt b 4) (quadAt b 8) (wordAt b 16) s
  else if opc = 0x33 then runConfigRecorder h b s
  else if opc = 0x34 then execReadMonitor h (byteAt b 0) (wordAt b 8) s
  else execConfigMonitor h (byteAt b 0) (byteAt b 1) (wordAt b 8) (quadAt b 16) s

/-- Packets of firmware, windows and the fabric. -/
def runOthers (h : Hdr) (opc : Nat) (b : List Nat) (r : HostRead) (s : State) : Host.Outcome State Fault Refusal :=
  if opc = 0x40 then execFwStageBegin h (wordAt b 0) r s
  else if opc = 0x41 then execFwStageData h (wordAt b 0) (quadAt b 8) (quadAt b 12) r s
  else if opc = 0x42 then execFwStageCommit h s
  else if opc = 0x43 then execFwStatus h s
  else if opc = 0x60 then execWindowMap h (halfAt b 0) (byteAt b 2) (wordAt b 8) (wordAt b 16) s
  else if opc = 0x61 then execWindowUnmap h (halfAt b 0) s
  else if opc = 0x62 then
    execTransferResume h (byteAt b 0) ⟨quadAt b 4, quadAt b 8, quadAt b 12, quadAt b 16, quadAt b 20⟩ s
  else if opc = 0x70 then execFabricTrain h (quadAt b 0) (byteAt b 4) (byteAt b 5) s
  else if opc = 0x71 then execLinkStatus h (byteAt b 0) s
  else execTimeSyncStatus h s

/-- A packet that the arbiter sees (R318, R319): BAD_OPCODE, BAD_PARAM, or the command it carries. -/
def runPacket (src : Source) (ring : Fin 4) (b : List Nat) (r : HostRead) (s : State) : Host.Outcome State Fault Refusal :=
  let opc := nth 0 b 0
  let h : Hdr := ⟨src, ring, BitVec.ofNat 16 (field b 2 2), bit (nth 0 b 1) 0⟩
  if (cmdRow opc).isNone then refusePacket h opc .badOpcode s
  else if !packetOk b then refusePacket h opc .badParam s
  else if opc < 0x20 then runControl h opc b r s
  else if opc < 0x40 then runSettings h opc b s
  else runOthers h opc b r s

/-! ## Fetching from a ring -/

/-- The next entry of a submission ring may be fetched: the port can reach its rings, the ring holds an entry, and the reply
ring has a free entry that no fetched command has reserved (R313, R314, R320). While the management controller restarts nothing is
fetched; rings are fetched again once it is back (R337). -/
def Dev.canFetch (d : Dev) (p : Port) (k : Nat) : Bool :=
  let x := d.port p
  let r := x.ring k
  d.up && !d.boot.restarting && x.canWrite && r.sqEn && r.rqEn && r.sqHead ≠ r.sqTail && r.room true

/-- The entry is taken and its reply entry reserved (R314). -/
def RingPair.fetch (r : RingPair) : RingPair :=
  { r with sqHead := (r.sqHead + 1) % 2 ^ r.sqSize, reserved := r.reserved + 1 }

/-- COMMAND_FETCH: the entry at SQ_HEAD, whose 64 bytes the host's memory returns (R314). -/
def execCommandFetch (p : Port) (ring : Fin 4) (packet : BitVec 512) (r : HostRead) (s : State) :
    Host.Outcome State Fault Refusal :=
  if s.dev.canFetch p ring.val then
    runPacket (.host p) ring (leBytes 64 packet.toNat) r { s with dev := s.dev.mapRing p ring.val RingPair.fetch }
  else .next s

/-! ## The sideband -/

/-- The message keeps to the layout of R336 and a place is free: four commands are outstanding at most. -/
def Dev.sidebandTakes (d : Dev) (vendor : BitVec 16) (body : List Byte) : Bool :=
  d.sidebandUp && d.sideband.addr.isSome && vendor.toNat = Config.vendorId % 65536 && body.length = 65 &&
    (body.headD 1).toNat = 0 && decide (d.sideband.outstanding < 4)

/-- SIDEBAND_COMMAND_MESSAGE: a vendor-defined message from an endpoint (R336). -/
def execSidebandCommandMessage (eid : Byte) (vendor : BitVec 16) (body : List Byte) (r : HostRead) (s : State) :
    Host.Outcome State Fault Refusal :=
  if s.dev.sidebandTakes vendor body then
    let sb (x : Sideband) : Sideband := { x with host := some eid.toNat, outstanding := x.outstanding + 1 }
    runPacket .sideband 0 ((body.drop 1).map BitVec.toNat) r { s with dev := { s.dev with sideband := sb s.dev.sideband } }
  else .next s

end Sys2Proof.Machine
end

