-- ==== Sys2Proof/Machine/Scalar.lean ====
section
/-! DEFINITION. Scalar instructions (R184 to R188): integer and floating-point arithmetic, loads and stores, starting
descriptors, update commands, tracker and origin operations. -/
namespace Sys2Proof.Machine

/-! ## Registers -/

/-- A scalar register and an address register: what results have delivered so far (R26; log entry 42); s0 reads as 0 (R184). -/
def Dev.sRead (d : Dev) (e : SEng) (r : Nat) : Nat :=
  if r = 0 then 0
  else (Tab.find (d.s e).regs r).getD
    (d.unwritten (0x40000 + 64 * sKey e + r) 0 32 + 2 ^ 32 * d.unwritten (0x40000 + 64 * sKey e + r) 1 32)
def Dev.aRead (d : Dev) (e : SEng) (r : Nat) : Nat :=
  (Tab.find (d.s e).addr r).getD
    (d.unwritten (0x50000 + 32 * sKey e + r) 0 32 + 2 ^ 32 * d.unwritten (0x50000 + 32 * sKey e + r) 1 32)

def clsSAlu : Nat := 8
def clsSMem : Nat := 9

/-- Position of an S engine, and the fault of an access it makes. -/
def Dev.sPos (d : Dev) (e : SEng) : Nat := d.posS e.yard.val e.idx.val
def Dev.sFault (d : Dev) (e : SEng) : FaultInfo :=
  { code := 9, detail := 0, yard := e.yard.val, kind := 2, pos := d.sPos e, unit := sNo e,
    stops := some (sNo e) }

/-- The signed immediate of Table 9-10. -/
def imm19 (f : IntF) : Int := signed 19 f.val.toNat

/-- An integer instruction: `g` has RA and RB or the immediate (R184). -/
def Dev.sInt (d : Dev) (e : SEng) (f : IntF) (g : Nat → Nat → Nat) : Dev :=
  let a := d.sRead e f.ra.toNat
  let b := if f.imm then wrap 64 (imm19 f) else d.sRead e f.rb.toNat
  d.deliver (d.latency clsSAlu) (.sreg e f.rd.toNat (g a b % 2 ^ 64))

/-- An FP32 instruction on bits [31:0]; an immediate is the FP32 value of its integer (R184). -/
def Dev.sFp (d : Dev) (e : SEng) (f : IntF) (three : Bool) (g : Nat → Nat → Nat → Nat) : Dev :=
  let a := d.sRead e f.ra.toNat
  let b := if f.imm then (Val.ofInt (imm19 f)).toFp32 else d.sRead e f.rb.toNat
  let c := if three then d.sRead e f.rc.toNat else 0
  d.deliver (d.latency clsSAlu) (.sreg e f.rd.toNat (g (a % 2 ^ 32) (b % 2 ^ 32) (c % 2 ^ 32)))

/-! ## Arithmetic -/

/-- SNOP (R180). -/
def execSnop (_e : SEng) (s : State) : Host.Outcome State Fault Refusal := s.upd fun _ d => d
/-- SLOOP (R178). -/
def execSloop (e : SEng) (count : BitVec 16) (len : BitVec 12) (s : State) : Host.Outcome State Fault Refusal :=
  s.upd fun _ d => d.openLoop (sNo e) (count.toNat + 1) (len.toNat + 1)

def execSadd (e : SEng) (f : IntF) (s : State) : Host.Outcome State Fault Refusal :=
  s.upd fun _ d => d.sInt e f fun a b => a + b
def execSsub (e : SEng) (f : IntF) (s : State) : Host.Outcome State Fault Refusal :=
  s.upd fun _ d => d.sInt e f fun a b => wrap 64 ((a : Int) - b)
def execSmul (e : SEng) (f : IntF) (s : State) : Host.Outcome State Fault Refusal :=
  s.upd fun _ d => d.sInt e f fun a b => a * b
def execSand (e : SEng) (f : IntF) (s : State) : Host.Outcome State Fault Refusal :=
  s.upd fun _ d => d.sInt e f Nat.land
def execSor (e : SEng) (f : IntF) (s : State) : Host.Outcome State Fault Refusal :=
  s.upd fun _ d => d.sInt e f Nat.lor
def execSxor (e : SEng) (f : IntF) (s : State) : Host.Outcome State Fault Refusal :=
  s.upd fun _ d => d.sInt e f Nat.xor
def execSshl (e : SEng) (f : IntF) (s : State) : Host.Outcome State Fault Refusal :=
  s.upd fun _ d => d.sInt e f fun a b => a * 2 ^ (b % 64)
def execSshr (e : SEng) (f : IntF) (s : State) : Host.Outcome State Fault Refusal :=
  s.upd fun _ d => d.sInt e f fun a b => a / 2 ^ (b % 64)
def execSsra (e : SEng) (f : IntF) (s : State) : Host.Outcome State Fault Refusal :=
  s.upd fun _ d => d.sInt e f fun a b => wrap 64 (signed 64 a / (2 ^ (b % 64) : Nat))

/-- Conditions of SCMP: 0 EQ, 1 NE, 2 LT, 3 LE, 4 LTU, 5 LEU. -/
def scmp (c a b : Nat) : Bool :=
  if c = 0 then a = b else if c = 1 then a ≠ b
  else if c = 2 then signed 64 a < signed 64 b else if c = 3 then signed 64 a ≤ signed 64 b
  else if c = 4 then a < b else a ≤ b

def execScmp (e : SEng) (f : IntF) (s : State) : Host.Outcome State Fault Refusal :=
  s.upd fun _ d => d.sInt e f fun a b => b2n (scmp (f.rc.toNat % 8) a b)

/-- SSEL: s[RA] where s[RC] is nonzero. -/
def execSsel (e : SEng) (f : IntF) (s : State) : Host.Outcome State Fault Refusal :=
  s.upd fun _ d =>
    let c := d.sRead e f.rc.toNat
    d.sInt e f fun a b => if c ≠ 0 then a else b

def execSli (e : SEng) (rd : BitVec 6) (imm : BitVec 32) (s : State) : Host.Outcome State Fault Refusal :=
  s.upd fun _ d => d.deliver (d.latency clsSAlu) (.sreg e rd.toNat (wrap 64 (signed 32 imm.toNat)))
def execSlih (e : SEng) (rd : BitVec 6) (imm : BitVec 32) (s : State) : Host.Outcome State Fault Refusal :=
  s.upd fun _ d => d.deliver (d.latency clsSAlu) (.sregHigh e rd.toNat imm.toNat)
def execSadda (e : SEng) (ad as : BitVec 5) (imm : BitVec 32) (s : State) : Host.Outcome State Fault Refusal :=
  s.upd fun _ d =>
    let a := d.aRead e as.toNat
    d.deliver (d.latency clsSAlu) (.areg e ad.toNat (wrap 64 ((a : Int) + signed 32 imm.toNat)))
def execSmova (e : SEng) (ad : BitVec 5) (ra : BitVec 6) (s : State) : Host.Outcome State Fault Refusal :=
  s.upd fun _ d =>
    let a := d.sRead e ra.toNat
    d.deliver (d.latency clsSAlu) (.areg e ad.toNat a)

def execSfadd (e : SEng) (f : IntF) (s : State) : Host.Outcome State Fault Refusal :=
  s.upd fun _ d => d.sFp e f false fun a b _ => fadd a b
def execSfmul (e : SEng) (f : IntF) (s : State) : Host.Outcome State Fault Refusal :=
  s.upd fun _ d => d.sFp e f false fun a b _ => fmul a b
def execSffma (e : SEng) (f : IntF) (s : State) : Host.Outcome State Fault Refusal :=
  s.upd fun _ d => d.sFp e f true ffma

/-- SFRCP and SFRSQRT: the accuracy and latency of the vector functions (R184, Table 9-11). -/
def Dev.sSpecial (d : Dev) (e : SEng) (f : IntF) (g : Nat → Nat × Nat) : Dev :=
  let a := d.sRead e f.ra.toNat
  d.deliver (d.latency clsQuarter) (.sreg e f.rd.toNat (g (a % 2 ^ 32)).1)
def execSfrcp (e : SEng) (f : IntF) (s : State) : Host.Outcome State Fault Refusal :=
  s.upd fun _ d => d.sSpecial e f fRcp
def execSfrsqrt (e : SEng) (f : IntF) (s : State) : Host.Outcome State Fault Refusal :=
  s.upd fun _ d => d.sSpecial e f fRsqrt

/-- FP32 to a signed 64-bit integer: NaN gives 0, out of range clamps (R184). -/
def fpToInt (m : Mode) (w : Nat) : Nat :=
  match val32 w with
  | .nan => 0
  | .inf n => if n then 2 ^ 63 else 2 ^ 63 - 1
  | .fin n man exp =>
    let q := if exp > 64 then (if man = 0 then 0 else 2 ^ 64) else roundUnit m man exp 0
    if n then wrap 64 (-(min q (2 ^ 63) : Nat)) else min q (2 ^ 63 - 1)

/-- A signed 64-bit integer to FP32. -/
def intToFp (m : Mode) (a : Nat) : Nat := (narrow 0 m false false (Val.ofInt (signed 64 a))).1

/-- SFCVT (R184): direction and mode are fields of the word. -/
def execSfcvt (e : SEng) (f : IntF) (s : State) : Host.Outcome State Fault Refusal :=
  s.upd fun _ d =>
    let code := f.rc.toNat / 2 % 4
    let a := d.sRead e f.ra.toNat
    let r := if code ≠ 2 then 0 else if f.imm then wrap 64 (imm19 f) else d.sRead e f.rb.toNat
    let mode := modeOf code (srNumber d.seed 0 (r % 2 ^ 32) (r / 2 ^ 32 % 2 ^ 32) 0)
    let v := if f.rc.toNat % 2 = 0 then fpToInt mode (a % 2 ^ 32) else intToFp mode a
    d.deliver (d.latency clsSAlu) (.sreg e f.rd.toNat v)

/-! ## Scalar memory -/

def memBytes (f : MemF) : Nat := 2 ^ f.size.toNat

/-- (a[AREG] + OFF) mod 2^64. -/
def memOffset (a : Nat) (f : MemF) : Nat := wrap 64 ((a : Int) + signed 30 f.off.toNat)

/-- SLD: read at issue, register written at S_MEM (R185, R186). -/
def execSld (e : SEng) (f : MemF) (ecc : Ecc) (s : State) : Host.Outcome State Fault Refusal :=
  s.upd fun _ d =>
    let y := e.yard.val
    let a := d.aRead e f.areg.toNat
    let off := memOffset a f
    let (bs, d2) := d.fetch ecc (d.sFault e) y 5 e.idx.val (addrRange off (memBytes f))
    let v := leNat bs
    d2.deliver (d2.latency clsSMem) (.sreg e f.r.toNat (if f.sgn then wrap 64 (signed (8 * (memBytes f)) v) else v))

/-- SST. -/
def execSst (e : SEng) (f : MemF) (s : State) : Host.Outcome State Fault Refusal :=
  s.upd fun _ d =>
    let a := d.aRead e f.areg.toNat
    let v := d.sRead e f.r.toNat
    let off := memOffset a f
    d.scatterTo (d.sFault e) e.yard.val 5 e.idx.val (d.latency clsSMem)
      ((List.range (memBytes f)).map fun i => (off + i, 255, v / 256 ^ i % 256))

/-! ## Descriptors and update commands -/

/-- XSTART (R186, R231): the descriptor's bytes are read at issue. -/
def execXstart (e : SEng) (f : XstartF) (ecc : Ecc) (s : State) : Host.Outcome State Fault Refusal :=
  s.upd fun _ d =>
    let y := e.yard.val
    let a := d.aRead e f.areg.toNat
    let off := (a + 64 * f.off.toNat) % 2 ^ 64
    let k := 2 * e.idx.val + b2n f.xsel
    if off % 64 ≠ 0 then d.undefined (d.sFault e) (onchipAddr y 5 e.idx.val off)
    else if off + 128 > spaceSize 5 then d.boundsFault (d.sFault e) (onchipAddr y 5 e.idx.val off)
    else
      let read (n : Nat) (d : Dev) : List Nat × Dev :=
        d.fetch .none (d.sFault e) y 5 e.idx.val (addrRange off n)
      let (b, d2) := read 128 (d.strike ecc (onchipAddr y 5 e.idx.val off))
      if b.getD 0 0 = 2 then
        if off + 192 > spaceSize 5 then d2.boundsFault (d2.sFault e) (onchipAddr y 5 e.idx.val (off + 128))
        else
          let (b', d3) := d2.fetch .none (d2.sFault e) y 5 e.idx.val (addrRange (off + 128) 64)
          d3.startDesc y k (d3.sPos e) (sNo e) (parseDesc (b ++ b')) f.due.toNat
      else d2.startDesc y k (d2.sPos e) (sNo e) (parseDesc b) f.due.toNat

/-- Send an update command to a unit: it takes a scoreboard entry of the yard (R28, R167, R187). -/
def Dev.sendUpdate (d : Dev) (e : SEng) (unit due : Nat) (c : UpdCmd) : Dev :=
  let (item, d1) := d.takeEntry e.yard.val (d.sched.sc + due % 2 ^ 24) 5 none 2 (d.sPos e) (sNo e)
  match item with
  | none => d1
  | some i =>
    -- a fenced engine sends no flits (R264)
    if d1.endFenced e.yard.val (24 + e.idx.val) then d1
    else d1.sendDyn 1 (e.yard.val, 24 + e.idx.val) (ctlEnd unit) (.command unit (sKey e) { c with item := i })

/-- Registers SREG, SREG + 1, … as one instruction reads them. -/
def Dev.sBlock (d : Dev) (e : SEng) (r : Nat) : Nat → List Nat
  | 0 => []
  | n + 1 =>
    d.sRead e (r % 64) :: d.sBlock e (r + 1) n

/-- UUPD (R187). -/
def execUupd (e : SEng) (f : UupdF) (s : State) : Host.Outcome State Fault Refusal :=
  s.upd fun _ d =>
    let v := d.sBlock e f.sreg.toNat 4
    d.sendUpdate e f.unit.toNat (nth 0 v 3)
      { opc := if f.sparse then 2 else 1, flags := f.flags.toNat, group := f.group.toNat, shard := f.shard.toNat,
        gen := nth 0 v 0 % 65536, tid := nth 0 v 0 / 65536 % 65536, draw := nth 0 v 0 / 2 ^ 32,
        gaddr := nth 0 v 1 % 2 ^ 48, ioff := nth 0 v 2 % 2 ^ 32, nidx := nth 0 v 2 / 2 ^ 32 }

/-- USETC (R187). -/
def execUsetc (e : SEng) (f : UsetcF) (s : State) : Host.Outcome State Fault Refusal :=
  s.upd fun _ d =>
    let v := d.sBlock e f.sreg.toNat 3
    d.sendUpdate e f.unit.toNat (nth 0 v 2)
      { opc := 3, group := f.group.toNat, gcount := f.gcount.toNat, cmask := f.cmask.toNat,
        vals := [nth 0 v 0 % 2 ^ 32, nth 0 v 0 / 2 ^ 32, nth 0 v 1 % 2 ^ 32, nth 0 v 1 / 2 ^ 32] }

/-- URLS (R187). -/
def execUrls (e : SEng) (unit : BitVec 5) (region : BitVec 16) (sreg : BitVec 6) (s : State) :
    Host.Outcome State Fault Refusal :=
  s.upd fun _ d =>
    let v := d.sBlock e sreg.toNat 2
    d.sendUpdate e unit.toNat (nth 0 v 1) { opc := 4, region := region.toNat, gen := nth 0 v 0 % 65536 }

/-! ## Trackers and origins -/

/-- TRKCLR (R188). -/
def execTrkclr (e : SEng) (entry base : Byte) (s : State) : Host.Outcome State Fault Refusal :=
  s.upd fun _ d => d.deliver (d.latency clsSAlu) (.tracker e.yard.val entry.toNat base.toNat)

/-- TRKRD (R188). -/
def execTrkrd (e : SEng) (rd : BitVec 6) (entry : Byte) (word : BitVec 5) (s : State) : Host.Outcome State Fault Refusal :=
  s.upd fun _ d =>
    let y := e.yard.val
    let n := entry.toNat
    let w := word.toNat
    let v := if w = 0 then d.word .rTRK_CFG [y, n] else if w = 1 then d.word .rTRK_AMAX [y, n] else d.word .rTRK_BIN [y, n, (w - 2) % 16]
    d.deliver (d.latency clsSMem) (.sreg e rd.toNat v.toNat)

/-- SORG (R188): an entry that the engine does not have gives results that are not defined. -/
def execSorg (e : SEng) (m : BitVec 4) (walk : Bool) (entry : Byte) (sreg : BitVec 6) (s : State) :
    Host.Outcome State Fault Refusal :=
  s.upd fun _ d =>
    let v := d.sRead e sreg.toNat
    let me : MEng := ⟨e.yard, ⟨m.toNat, m.isLt⟩⟩
    let n := entry.toNat
    let known :=
      if walk then
        match d.sched.image with
        | some im => decide (n < (im.walks.filter fun w => w.yard = e.yard.val ∧ w.eng = m.toNat).length)
        | none => false
      else decide (1 ≤ n) && decide (n ≤ d.getF fENG_MSIDE_COUNT [e.yard.val, m.toNat])
    let go (d : Dev) : Dev :=
      d.deliver (d.latency clsSAlu) (.origin me walk n (v % 2 ^ 32) (v / 2 ^ 32 % 2 ^ 32))
    if known then go d
    else
      let d2 := { d with nonce := d.nonce + 1 }
      if Config.freeBool d.nonce then go d2 else d2

end Sys2Proof.Machine
end

