-- ==== Sys2Proof/Machine/Results.lean ====
section
/-! DEFINITION. RESULT_DELIVERY: a fixed-latency operation writes its result at its declared latency (R26, R142), to registers,
memory, trackers (R69, R70), origins, gradient ports and router inputs. -/
namespace Sys2Proof.Machine

/-- Elements of a result put into a register's lanes (R142). -/
def putElems (b16 : Bool) (lo : Nat) (vals : List (Option Nat)) (lanes : List Nat) : List Nat :=
  (List.range lanes.length).map fun i =>
    let w := nth 0 lanes i
    let at_ (n : Nat) : Option Nat := if lo ≤ n then nth none vals (n - lo) else none
    if b16 then
      ((at_ (2 * i)).getD (w % 65536)) % 65536 + ((at_ (2 * i + 1)).getD (w / 65536 % 65536)) % 65536 * 65536
    else (at_ i).getD w % 2 ^ 32

/-- Bits of a result put into a mask register. -/
def putMask (lo : Nat) (bs : List (Option Bool)) (m : Nat) : Nat :=
  (List.range bs.length).foldl (fun m i =>
    match nth none bs i with
    | some b => if lo + i < 2048 then putBits m (lo + i) (lo + i) (b2n b) else m
    | none => m) m

/-- Sticky flags of ENG_VSTAT, with their triggers (R145, R158, R362). -/
def Dev.vStat (d : Dev) (e : VEng) (flags : Nat) : Dev :=
  let i := [e.yard.val, e.idx.val]
  let u := 16 * e.yard.val + e.idx.val
  let d1 := d.setWord .rENG_VSTAT i (BitVec.ofNat 64 (Nat.lor (d.word .rENG_VSTAT i).toNat flags))
  let d2 := if bit flags 5 && d1.flag fENG_VCTL_CHOL_EVENT i then d1.fire 4 u else d1
  if bit flags 4 && d2.flag fENG_VCTL_EMPTY_EVENT i then d2.fire 5 u else d2

/-- One value recorded in a tracker entry (R69). -/
def Dev.trackOne (d : Dev) (y n x : Nat) : Dev :=
  let v := val32 x
  let base := signed 8 (d.getF fTRK_CFG_BASE [y, n])
  let add (d : Dev) (b : Nat) : Dev := d.satAddF (if b % 2 = 0 then fTRK_BIN_BIN_LO else fTRK_BIN_BIN_HI) [y, n, b / 2] 1
  if v.isNan then d.satAddF fTRK_AMAX_NAN_COUNT [y, n] 1
  else
    let d1 := d.maxF fTRK_AMAX_AMAX [y, n] (x % 2 ^ 31)
    if v.isZero then add d1 0
    else if v.isInf then add d1 31
    else
      let ex := v.log2
      if ex < base then add d1 0
      else if ex ≤ base + 29 then add d1 (ex - base + 1).toNat
      else add d1 31

/-- Clear a tracker entry and write BASE (R70). -/
def Dev.trackClear (d : Dev) (y n base : Nat) : Dev :=
  (List.range 16).foldl (fun d j => d.setWord .rTRK_BIN [y, n, j] 0)
    ((d.setWord .rTRK_AMAX [y, n] 0).setWord .rTRK_CFG [y, n] (BitVec.ofNat 64 (base % 256)))

/-- Add FP32 values into words of an accumulator buffer, keeping the engine's flags (R76, R93). -/
def Dev.addWords (d : Dev) (a : Nat) : List Nat → Dev
  | [] => d
  | v :: vs =>
    let w := d.peekN a 4
    let t := (val32 w).add (val32 v)
    let d1 := (d.overwrite (addrRange a 4) (addrRange a 4)).pokes a (leBytes 4 t.toFp32)
    let f := flags32 [val32 w, val32 v] t
    let d2 :=
      match locate a with
      | .onchip y _ k _ => d1.mFlags ⟨Fin.ofNat 4 y, Fin.ofNat 16 k⟩ f
      | _ => d1
    d2.addWords (a + 4) vs

/-- A write lands, unless its position has been fenced since it was checked (R200). -/
def Dev.land (d : Dev) (addrs : List Nat) (write : Dev → Dev) : Dev :=
  match addrs.head?.map locate with
  | some (.onchip y space e _) => if d.fencedPlace y space e then d.count .rOCM_FENCED_DROP [y] 1 else write d
  | _ => write d

/-- Write a result. -/
def Dev.apply (d : Dev) (t : Target) : Dev :=
  match t with
  | .vreg e v b16 lo vals =>
    d.setV e { d.v e with regs := Tab.insert (d.v e).regs v (putElems b16 lo vals (d.vRead e v)) }
  | .vmask e m lo bs =>
    if m = 0 then d else d.setV e { d.v e with masks := Tab.insert (d.v e).masks m (putMask lo bs (d.maskRead e m)) }
  | .vstat e flags => d.vStat e flags
  | .release e slots =>
    (List.range 4).foldl (fun d n =>
      if bit slots n then
        d.setWord .rENG_VSLOT [e.yard.val, e.idx.val]
          (BitVec.ofNat 64 (putBits (d.word .rENG_VSLOT [e.yard.val, e.idx.val]).toNat (8 * n + 7) (8 * n + 7) 0))
      else d) d
  | .sreg e r v => if r = 0 then d else d.setS e { d.s e with regs := Tab.insert (d.s e).regs r (v % 2 ^ 64) }
  | .sregHigh e r v =>
    if r = 0 then d
    else d.setS e { d.s e with regs := Tab.insert (d.s e).regs r (d.sRead e r % 2 ^ 32 + 2 ^ 32 * (v % 2 ^ 32)) }
  | .areg e r v => d.setS e { d.s e with addr := Tab.insert (d.s e).addr r (v % 2 ^ 64) }
  | .bytes a bs => d.store { code := 9, detail := 1 } a bs
  | .scatter l =>
    d.land (l.map (·.1)) fun d =>
      l.foldl (fun d w =>
        let old := d.peek w.1
        d.poke w.1 ((old - Nat.land old w.2.1) + Nat.land w.2.2 w.2.1))
        (d.overwrite (l.map (·.1)) ((l.filter fun w => w.2.1 = 255).map (·.1)))
  | .accum a vals => d.land [a] fun d => (d.meet (addrRange a (4 * vals.length))).addWords a vals
  | .offer y space e port slack t =>
    let base := onchipAddr y space e 0
    let rows := rowsOf space (t.addrs.map fun a => a - base)
    let (acc, d1) := d.present y space e true port 0 (slack > 0) rows
    let d2 := match t with | .accum _ _ => (d1.present y space e false port 0 false rows).2 | _ => d1
    if slack = 0 then d2.apply t else d2.deliver slack (.held acc 0 t)
  | .held acc lat t =>
    if !(d.delayOf acc).2 then d.deliver 1 (.held acc lat t)
    else if lat = 0 then (d.forget acc).apply t else (d.forget acc).deliver lat t
  | .slack acc region lat t =>
    if (d.delayOf acc).2 then (d.forget acc).deliver lat t
    else (d.violation 5 (region / 4) 3 region).deliver 1 (.held acc lat t)
  | .source acc region t =>
    let d1 := d.forget acc
    if (d.delayOf acc).2 && (d.delayOf acc).1 ≤ 4 then d1.apply t else d1.violation 5 (region / 4) 3 region
  | .tracker y n base => d.trackClear y n base
  | .track y n vals => vals.foldl (fun d x => d.trackOne y n x) d
  | .origin e walk entry r0 c0 =>
    let m := d.m e
    if walk then
      d.setM e { m with walkOrg := Tab.put (0, 0) m.walkOrg entry (r0, c0),
                        orgSet := Tab.insert m.orgSet (256 + entry) d.sched.sc }
    else
      d.setM e { m with sideOrg := Tab.put (0, 0) m.sideOrg entry (r0, c0), orgSet := Tab.insert m.orgSet entry d.sched.sc }
  | .grad unit bs => d.gradEnter unit (endRegion (ctlEnd unit)) bs
  | .hand y c router port half dest data => d.handOver y c router port half dest data

/-- Order in which the results of one sc are written: tracker clears before records (R70), otherwise in issue order (R142). -/
def Delivery.before (a b : Delivery) : Bool :=
  let rank (t : Target) : Nat := match t with | .track _ _ _ => 1 | _ => 0
  a.due < b.due || (a.due = b.due && (rank a.target < rank b.target || (rank a.target = rank b.target && a.order < b.order)))

/-- The next result whose cycle has come. -/
def Dev.resultDue (d : Dev) : Option Delivery :=
  d.sched.inFlight.foldl (fun best x =>
    if x.due ≤ d.sched.sc then
      match best with
      | none => some x
      | some b => if x.before b then some x else best
    else best) none

/-- An error comes up in a register of an engine or in a crossing FIFO (R354). -/
def Dev.registerEcc (d : Dev) (err : RegErr) : Dev :=
  let ecc (uncorr : Bool) : Ecc := if uncorr then .uncorrectable else .corrected
  match err with
  | .none => d
  | .vector e u => d.unitEcc (ecc u) 4 e.yard.val 1 (d.posV e.yard.val e.idx.val) (vNo e)
  | .scalar e u => d.unitEcc (ecc u) 5 e.yard.val 2 (d.posS e.yard.val e.idx.val) (sNo e)
  | .matrix e u => d.unitEcc (ecc u) 5 e.yard.val 0 (d.mPos e) (mNo e)
  | .crossing r u => d.logicEcc (ecc u) 6 (r.val / 4) 3 r.val

/-- RESULT_DELIVERY (R26). No row is a read of a register: an error that comes up in one, or in a crossing FIFO, comes with this row
(log entry 12). -/
def execResultDelivery (err : RegErr) (s : State) : Host.Outcome State Fault Refusal :=
  s.upd fun _ d0 =>
    let d := d0.registerEcc err
    match d.resultDue with
    | none => d
    | some x => (d.withSched fun s => { s with inFlight := s.inFlight.erase x }).apply x.target

end Sys2Proof.Machine
end

