-- ==== Sys2Proof/Machine/VecLane.lean ====
section
/-! DEFINITION. Vector instructions on lanes and masks at the rate of the arithmetic unit (R143), base registers (R141), loops
(R178) and VNOP (R180). -/
namespace Sys2Proof.Machine

/-- VNOP (R180). -/
def execVnop (e : VEng) (s : State) : Host.Outcome State Fault Refusal := s.vUpd e fun d => d
/-- VLOOP (R178). -/
def execVloop (e : VEng) (count : BitVec 16) (len : BitVec 12) (s : State) : Host.Outcome State Fault Refusal :=
  s.vUpd e fun d => d.openLoop (vNo e) (count.toNat + 1) (len.toNat + 1)
/-- VSETB and VADDB (R141). -/
def execVsetb (e : VEng) (r : BitVec 3) (v : BitVec 32) (s : State) : Host.Outcome State Fault Refusal :=
  s.vUpd e fun d => d.setVb e r.toNat v.toNat
def execVaddb (e : VEng) (r : BitVec 3) (v : BitVec 32) (s : State) : Host.Outcome State Fault Refusal :=
  s.vUpd e fun d => d.setVb e r.toNat (d.vb e r.toNat + v.toNat)

def execVadd (e : VEng) (f : LaneF) (s : State) : Host.Outcome State Fault Refusal :=
  s.vUpd e fun d => d.lane e f clsAlu 2 fun _ a b _ => addElem f.ty.toNat a b
def execVsub (e : VEng) (f : LaneF) (s : State) : Host.Outcome State Fault Refusal :=
  s.vUpd e fun d => d.lane e f clsAlu 2 fun _ a b _ => subElem f.ty.toNat a b
def execVmul (e : VEng) (f : LaneF) (s : State) : Host.Outcome State Fault Refusal :=
  s.vUpd e fun d => d.lane e f clsAlu 2 fun _ a b _ => mulElem f.ty.toNat a b
def execVfma (e : VEng) (f : LaneF) (s : State) : Host.Outcome State Fault Refusal :=
  s.vUpd e fun d => d.lane e f clsAlu 3 fun _ a b c => fmaElem f.ty.toNat a b c
def execVmax (e : VEng) (f : LaneF) (s : State) : Host.Outcome State Fault Refusal :=
  s.vUpd e fun d => d.lane e f clsAlu 2 fun _ a b _ => (maxElem f.ty.toNat a b, 0)
def execVmin (e : VEng) (f : LaneF) (s : State) : Host.Outcome State Fault Refusal :=
  s.vUpd e fun d => d.lane e f clsAlu 2 fun _ a b _ => (minElem f.ty.toNat a b, 0)
def execVabs (e : VEng) (f : LaneF) (s : State) : Host.Outcome State Fault Refusal :=
  s.vUpd e fun d => d.laneFree e f clsAlu 1 fun k a _ _ => (signElem false f.ty.toNat k a, 0)
def execVneg (e : VEng) (f : LaneF) (s : State) : Host.Outcome State Fault Refusal :=
  s.vUpd e fun d => d.laneFree e f clsAlu 1 fun k a _ _ => (signElem true f.ty.toNat k a, 0)

/-- VCMP writes the bits of a mask register whose elements its mask selects. -/
def execVcmp (e : VEng) (f : LaneF) (s : State) : Host.Outcome State Fault Refusal :=
  s.vUpd e fun d =>
    let x := d.laneIn e f 2
    let bs := (List.range (tyCount f.ty.toNat)).map fun i =>
      if bit x.mask i then some (cmpElem f.sub.toNat f.ty.toNat (nth 0 x.a i) (nth 0 x.b i)) else none
    d.deliver (d.latency clsAlu) (.vmask e (f.vd.toNat % 16) 0 bs)

/-- VSEL: the selector is the mask register that VC names. -/
def execVsel (e : VEng) (f : LaneF) (s : State) : Host.Outcome State Fault Refusal :=
  s.vUpd e fun d =>
    let x := d.laneIn e f 2
    let sel := d.maskRead e (f.vc.toNat % 16)
    d.vDeliver e f.vd.toNat f.ty.toNat (d.latency clsAlu) x.mask
      ((List.range (tyCount f.ty.toNat)).map fun i => (if bit sel i then nth 0 x.a i else nth 0 x.b i, 0))

def execVand (e : VEng) (f : LaneF) (s : State) : Host.Outcome State Fault Refusal :=
  s.vUpd e fun d => d.lane e f clsAlu 2 fun _ a b _ => (Nat.land a b, 0)
def execVor (e : VEng) (f : LaneF) (s : State) : Host.Outcome State Fault Refusal :=
  s.vUpd e fun d => d.lane e f clsAlu 2 fun _ a b _ => (Nat.lor a b, 0)
def execVxor (e : VEng) (f : LaneF) (s : State) : Host.Outcome State Fault Refusal :=
  s.vUpd e fun d => d.lane e f clsAlu 2 fun _ a b _ => (Nat.xor a b, 0)
def execVshl (e : VEng) (f : LaneF) (s : State) : Host.Outcome State Fault Refusal :=
  s.vUpd e fun d => d.laneFree e f clsAlu 2 fun k a b _ => (shiftElem 0 k a b, 0)
def execVshr (e : VEng) (f : LaneF) (s : State) : Host.Outcome State Fault Refusal :=
  s.vUpd e fun d => d.laneFree e f clsAlu 2 fun k a b _ => (shiftElem 1 k a b, 0)
def execVsra (e : VEng) (f : LaneF) (s : State) : Host.Outcome State Fault Refusal :=
  s.vUpd e fun d => d.laneFree e f clsAlu 2 fun k a b _ => (shiftElem 2 k a b, 0)

/-- Mask register logic on all 2,048 bits, under the write mask (R142, R143). -/
def Dev.maskOp (d : Dev) (e : VEng) (f : LaneF) (two : Bool) (g : Bool → Bool → Bool) : Dev :=
  let m := d.maskRead e f.mask.toNat
  let a := d.maskRead e (f.va.toNat % 16)
  let b := if two then d.maskRead e (f.vb.toNat % 16) else 0
  d.deliver (d.latency clsAlu) (.vmask e (f.vd.toNat % 16) 0
    ((List.range 2048).map fun i => if bit m i then some (g (bit a i) (bit b i)) else none))

def execVmand (e : VEng) (f : LaneF) (s : State) : Host.Outcome State Fault Refusal :=
  s.vUpd e fun d => d.maskOp e f true fun a b => a && b
def execVmor (e : VEng) (f : LaneF) (s : State) : Host.Outcome State Fault Refusal :=
  s.vUpd e fun d => d.maskOp e f true fun a b => a || b
def execVmxor (e : VEng) (f : LaneF) (s : State) : Host.Outcome State Fault Refusal :=
  s.vUpd e fun d => d.maskOp e f true fun a b => a != b
def execVmnot (e : VEng) (f : LaneF) (s : State) : Host.Outcome State Fault Refusal :=
  s.vUpd e fun d => d.maskOp e f false fun a _ => !a

end Sys2Proof.Machine
end

