-- ==== Sys2Proof/Machine/Dispatch.lean ====
section
/-! DEFINITION. One arm per command: its meaning. -/
namespace Sys2Proof.Machine

/-- The effect of a command on everything but the queue. -/
def exec (i : Instr) (s : State) : Host.Outcome State Fault Refusal :=
  match i with
  | .identify h => Sys2Proof.Machine.execIdentify h s
  | .getStatus h => Sys2Proof.Machine.execGetStatus h s
  | .claim h flags => Sys2Proof.Machine.execClaim h flags s
  | .release h => Sys2Proof.Machine.execRelease h s
  | .loadImage h src length r => Sys2Proof.Machine.execLoadImage h src length r s
  | .verifyImage h src length r => Sys2Proof.Machine.execVerifyImage h src length r s
  | .start h base flags => Sys2Proof.Machine.execStart h base flags s
  | .halt h => Sys2Proof.Machine.execHalt h s
  | .resume h => Sys2Proof.Machine.execResume h s
  | .abort h => Sys2Proof.Machine.execAbort h s
  | .snapshotAt h step sc dst spaces => Sys2Proof.Machine.execSnapshotAt h step sc dst spaces s
  | .restore h src length r => Sys2Proof.Machine.execRestore h src length r s
  | .setOperatingPoint h op flags atTc => Sys2Proof.Machine.execSetOperatingPoint h op flags atTc s
  | .setPowerLimit h limit flags => Sys2Proof.Machine.execSetPowerLimit h limit flags s
  | .fenceEngine h yard kind pos => Sys2Proof.Machine.execFenceEngine h yard kind pos s
  | .unfenceEngine h yard kind pos => Sys2Proof.Machine.execUnfenceEngine h yard kind pos s
  | .setMembership h epoch devId tsrc flags => Sys2Proof.Machine.execSetMembership h epoch devId tsrc flags s
  | .resetAll h epoch devId tsrc => Sys2Proof.Machine.execResetAll h epoch devId tsrc s
  | .readReg h addr => Sys2Proof.Machine.execReadReg h addr s
  | .writeReg h addr value => Sys2Proof.Machine.execWriteReg h addr value s
  | .expertEnable h value => Sys2Proof.Machine.execExpertEnable h value s
  | .retrain h unit value => Sys2Proof.Machine.execRetrain h unit value s
  | .retrainComplete unit margin => Sys2Proof.Machine.execRetrainComplete unit margin s
  | .clkPdCtl h value => Sys2Proof.Machine.execClkPdCtl h value s
  | .powerDomainReady pd => Sys2Proof.Machine.execPowerDomainReady pd s
  | .readRecorder h source slot first count dst => Sys2Proof.Machine.execReadRecorder h source slot first count dst s
  | .clear h => Sys2Proof.Machine.execClear h s
  | .trigger h value => Sys2Proof.Machine.execTrigger h value s
  | .dump h => Sys2Proof.Machine.execDump h s
  | .setDump h value => Sys2Proof.Machine.execSetDump h value s
  | .getDump h => Sys2Proof.Machine.execGetDump h s
  | .readMonitor h channel dst => Sys2Proof.Machine.execReadMonitor h channel dst s
  | .configMonitor h channel flags cfg limit => Sys2Proof.Machine.execConfigMonitor h channel flags cfg limit s
  | .clearOnly h channel => Sys2Proof.Machine.execClearOnly h channel s
  | .fwStageBegin h src r => Sys2Proof.Machine.execFwStageBegin h src r s
  | .fwStageData h src length offset r => Sys2Proof.Machine.execFwStageData h src length offset r s
  | .fwStageCommit h => Sys2Proof.Machine.execFwStageCommit h s
  | .fwStatus h => Sys2Proof.Machine.execFwStatus h s
  | .windowMap h window flags haddr length => Sys2Proof.Machine.execWindowMap h window flags haddr length s
  | .windowUnmap h window => Sys2Proof.Machine.execWindowUnmap h window s
  | .transferResume h engine c => Sys2Proof.Machine.execTransferResume h engine c s
  | .fabricTrain h ports op width => Sys2Proof.Machine.execFabricTrain h ports op width s
  | .fabricTakeDown h ports width => Sys2Proof.Machine.execFabricTakeDown h ports width s
  | .linkStatus h port => Sys2Proof.Machine.execLinkStatus h port s
  | .timeSyncStatus h => Sys2Proof.Machine.execTimeSyncStatus h s
  | .longCommandComplete r => Sys2Proof.Machine.execLongCommandComplete r s
  | .longCommandTimeout => Sys2Proof.Machine.execLongCommandTimeout s
  | .sqTail p k value => Sys2Proof.Machine.execSqTail p k value s
  | .rqHead p k value => Sys2Proof.Machine.execRqHead p k value s
  | .ringEnable p rq k base value => Sys2Proof.Machine.execRingEnable p rq k base value s
  | .ringDisable p rq k => Sys2Proof.Machine.execRingDisable p rq k s
  | .bar2Write p offset value => Sys2Proof.Machine.execBar2Write p offset value s
  | .commandFetch p ring packet r => Sys2Proof.Machine.execCommandFetch p ring packet r s
  | .eventDelivery p => Sys2Proof.Machine.execEventDelivery p s
  | .runFault => Sys2Proof.Machine.execRunFault s
  | .functionLevelReset p => Sys2Proof.Machine.execFunctionLevelReset p s
  | .perstN p low => Sys2Proof.Machine.execPerstN p low s
  | .linkLoss p => Sys2Proof.Machine.execLinkLoss p s
  | .configurationRequest p q => Sys2Proof.Machine.execConfigurationRequest p q s
  | .translationCompletion p page order read write => Sys2Proof.Machine.execTranslationCompletion p page order read write s
  | .prgResponse p page success => Sys2Proof.Machine.execPrgResponse p page success s
  | .invalidateRequest p page order => Sys2Proof.Machine.execInvalidateRequest p page order s
  | .priTimeout p => Sys2Proof.Machine.execPriTimeout p s
  | .pcieCompletion x idx r => Sys2Proof.Machine.execPcieCompletion x idx r s
  | .entdaa addr => Sys2Proof.Machine.execEntdaa addr s
  | .setEndpointId eid => Sys2Proof.Machine.execSetEndpointId eid s
  | .getEndpointId => Sys2Proof.Machine.execGetEndpointId s
  | .getMctpVersionSupport => Sys2Proof.Machine.execGetMctpVersionSupport s
  | .getMessageTypeSupport => Sys2Proof.Machine.execGetMessageTypeSupport s
  | .sidebandCommandMessage eid vendor body r => Sys2Proof.Machine.execSidebandCommandMessage eid vendor body r s
  | .getVersion p => Sys2Proof.Machine.execGetVersion p s
  | .getCapabilities p version => Sys2Proof.Machine.execGetCapabilities p version s
  | .negotiateAlgorithms p version asym hash => Sys2Proof.Machine.execNegotiateAlgorithms p version asym hash s
  | .getDigests p version => Sys2Proof.Machine.execGetDigests p version s
  | .getCertificate p version slot offset length => Sys2Proof.Machine.execGetCertificate p version slot offset length s
  | .challenge p version slot nonce => Sys2Proof.Machine.execChallenge p version slot nonce s
  | .getMeasurements p version op signed nonce => Sys2Proof.Machine.execGetMeasurements p version op signed nonce s
  | .powerUp => Sys2Proof.Machine.execPowerUp s
  | .resetN => Sys2Proof.Machine.execResetN s
  | .resetRelease testMode => Sys2Proof.Machine.execResetRelease testMode s
  | .powerLoss => Sys2Proof.Machine.execPowerLoss s
  | .bootStageComplete ok present modules margins lanes => Sys2Proof.Machine.execBootStageComplete ok present modules margins lanes s
  | .watchdogExpiry => Sys2Proof.Machine.execWatchdogExpiry s
  | .managementRestartComplete => Sys2Proof.Machine.execManagementRestartComplete s
  | .mnop e => Sys2Proof.Machine.execMnop e s
  | .mloop e count len => Sys2Proof.Machine.execMloop e count len s
  | .msetb e r v => Sys2Proof.Machine.execMsetb e r v s
  | .maddb e r v => Sys2Proof.Machine.execMaddb e r v s
  | .mma e f => Sys2Proof.Machine.execMma e f s
  | .reshape e shape => Sys2Proof.Machine.execReshape e shape s
  | .reshapeComplete e => Sys2Proof.Machine.execReshapeComplete e s
  | .mdrn e f ecc => Sys2Proof.Machine.execMdrn e f ecc s
  | .arrayStep e ecc => Sys2Proof.Machine.execArrayStep e ecc s
  | .bubble e => Sys2Proof.Machine.execBubble e s
  | .mangerDelivery e row read ecc => Sys2Proof.Machine.execMangerDelivery e row read ecc s
  | .drainRow e read ecc => Sys2Proof.Machine.execDrainRow e read ecc s
  | .checksumVerdict e => Sys2Proof.Machine.execChecksumVerdict e s
  | .resultDelivery err => Sys2Proof.Machine.execResultDelivery err s
  | .vnop e => Sys2Proof.Machine.execVnop e s
  | .vloop e count len => Sys2Proof.Machine.execVloop e count len s
  | .vsetb e r v => Sys2Proof.Machine.execVsetb e r v s
  | .vaddb e r v => Sys2Proof.Machine.execVaddb e r v s
  | .vadd e f => Sys2Proof.Machine.execVadd e f s
  | .vsub e f => Sys2Proof.Machine.execVsub e f s
  | .vmul e f => Sys2Proof.Machine.execVmul e f s
  | .vfma e f => Sys2Proof.Machine.execVfma e f s
  | .vmax e f => Sys2Proof.Machine.execVmax e f s
  | .vmin e f => Sys2Proof.Machine.execVmin e f s
  | .vabs e f => Sys2Proof.Machine.execVabs e f s
  | .vneg e f => Sys2Proof.Machine.execVneg e f s
  | .vcmp e f => Sys2Proof.Machine.execVcmp e f s
  | .vsel e f => Sys2Proof.Machine.execVsel e f s
  | .vcvt e f => Sys2Proof.Machine.execVcvt e f s
  | .vand e f => Sys2Proof.Machine.execVand e f s
  | .vor e f => Sys2Proof.Machine.execVor e f s
  | .vxor e f => Sys2Proof.Machine.execVxor e f s
  | .vshl e f => Sys2Proof.Machine.execVshl e f s
  | .vshr e f => Sys2Proof.Machine.execVshr e f s
  | .vsra e f => Sys2Proof.Machine.execVsra e f s
  | .vmand e f => Sys2Proof.Machine.execVmand e f s
  | .vmor e f => Sys2Proof.Machine.execVmor e f s
  | .vmxor e f => Sys2Proof.Machine.execVmxor e f s
  | .vmnot e f => Sys2Proof.Machine.execVmnot e f s
  | .vexp2 e f => Sys2Proof.Machine.execVexp2 e f s
  | .vrcp e f => Sys2Proof.Machine.execVrcp e f s
  | .vlog2 e f => Sys2Proof.Machine.execVlog2 e f s
  | .vrsqrt e f => Sys2Proof.Machine.execVrsqrt e f s
  | .vtanh e f => Sys2Proof.Machine.execVtanh e f s
  | .vsig e f => Sys2Proof.Machine.execVsig e f s
  | .verf e f => Sys2Proof.Machine.execVerf e f s
  | .vsmx e f => Sys2Proof.Machine.execVsmx e f s
  | .vsmnorm e f => Sys2Proof.Machine.execVsmnorm e f s
  | .vsmrec e f => Sys2Proof.Machine.execVsmrec e f s
  | .vsmstat e f => Sys2Proof.Machine.execVsmstat e f s
  | .vred e f => Sys2Proof.Machine.execVred e f s
  | .vld e f ecc => Sys2Proof.Machine.execVld e f ecc s
  | .vst e f => Sys2Proof.Machine.execVst e f s
  | .vrel e slots => Sys2Proof.Machine.execVrel e slots s
  | .vchol e f md delta ecc => Sys2Proof.Machine.execVchol e f md delta ecc s
  | .vtrsm e f tr k ybase y ystride ecc => Sys2Proof.Machine.execVtrsm e f tr k ybase y ystride ecc s
  | .snop e => Sys2Proof.Machine.execSnop e s
  | .sloop e count len => Sys2Proof.Machine.execSloop e count len s
  | .sadd e f => Sys2Proof.Machine.execSadd e f s
  | .ssub e f => Sys2Proof.Machine.execSsub e f s
  | .smul e f => Sys2Proof.Machine.execSmul e f s
  | .sand e f => Sys2Proof.Machine.execSand e f s
  | .sor e f => Sys2Proof.Machine.execSor e f s
  | .sxor e f => Sys2Proof.Machine.execSxor e f s
  | .sshl e f => Sys2Proof.Machine.execSshl e f s
  | .sshr e f => Sys2Proof.Machine.execSshr e f s
  | .ssra e f => Sys2Proof.Machine.execSsra e f s
  | .scmp e f => Sys2Proof.Machine.execScmp e f s
  | .ssel e f => Sys2Proof.Machine.execSsel e f s
  | .sli e rd imm => Sys2Proof.Machine.execSli e rd imm s
  | .slih e rd imm => Sys2Proof.Machine.execSlih e rd imm s
  | .sadda e ad as imm => Sys2Proof.Machine.execSadda e ad as imm s
  | .smova e ad ra => Sys2Proof.Machine.execSmova e ad ra s
  | .sld e f ecc => Sys2Proof.Machine.execSld e f ecc s
  | .sst e f => Sys2Proof.Machine.execSst e f s
  | .sfadd e f => Sys2Proof.Machine.execSfadd e f s
  | .sfmul e f => Sys2Proof.Machine.execSfmul e f s
  | .sffma e f => Sys2Proof.Machine.execSffma e f s
  | .sfcvt e f => Sys2Proof.Machine.execSfcvt e f s
  | .sfrcp e f => Sys2Proof.Machine.execSfrcp e f s
  | .sfrsqrt e f => Sys2Proof.Machine.execSfrsqrt e f s
  | .xstart e f ecc => Sys2Proof.Machine.execXstart e f ecc s
  | .uupd e f => Sys2Proof.Machine.execUupd e f s
  | .usetc e f => Sys2Proof.Machine.execUsetc e f s
  | .urls e unit region sreg => Sys2Proof.Machine.execUrls e unit region sreg s
  | .trkclr e entry base => Sys2Proof.Machine.execTrkclr e entry base s
  | .trkrd e rd entry word => Sys2Proof.Machine.execTrkrd e rd entry word s
  | .sorg e m walk entry sreg => Sys2Proof.Machine.execSorg e m walk entry sreg s
  | .horizonCheck => Sys2Proof.Machine.execHorizonCheck s
  | .itemCompletion => Sys2Proof.Machine.execItemCompletion s
  | .freeze => Sys2Proof.Machine.execFreeze s
  | .holdRelease => Sys2Proof.Machine.execHoldRelease s
  | .enginesResume => Sys2Proof.Machine.execEnginesResume s
  | .anchorFreeze => Sys2Proof.Machine.execAnchorFreeze s
  | .anchorEvaluation => Sys2Proof.Machine.execAnchorEvaluation s
  | .slipResume => Sys2Proof.Machine.execSlipResume s
  | .timeMark => Sys2Proof.Machine.execTimeMark s
  | .runEnd => Sys2Proof.Machine.execRunEnd s
  | .ringInjection yard ccw stop ecc => Sys2Proof.Machine.execRingInjection yard ccw stop ecc s
  | .ringDelivery e ccw ecc => Sys2Proof.Machine.execRingDelivery e ccw ecc s
  | .flitRemoval yard ccw slot => Sys2Proof.Machine.execFlitRemoval yard ccw slot s
  | .requestIssue x ctx ecc => Sys2Proof.Machine.execRequestIssue x ctx ecc s
  | .requestCompletion x idx err => Sys2Proof.Machine.execRequestCompletion x idx err s
  | .contextGrant x => Sys2Proof.Machine.execContextGrant x s
  | .descriptorCompletion x ctx => Sys2Proof.Machine.execDescriptorCompletion x ctx s
  | .chunkPresentation x ctx ecc => Sys2Proof.Machine.execChunkPresentation x ctx ecc s
  | .streamTileIssue x place => Sys2Proof.Machine.execStreamTileIssue x place s
  | .gradDelivery x fixedCtx ctx ecc => Sys2Proof.Machine.execGradDelivery x fixedCtx ctx ecc s
  | .hostWindowFault x ctx => Sys2Proof.Machine.execHostWindowFault x ctx s
  | .scrub yard space pos bank word ecc => Sys2Proof.Machine.execScrub yard space pos bank word ecc s
  | .memoryTemperatureRead unit temp => Sys2Proof.Machine.execMemoryTemperatureRead unit temp s
  | .adderOutput yard router half ecc => Sys2Proof.Machine.execAdderOutput yard router half ecc s
  | .bridgeResend yard lane lost => Sys2Proof.Machine.execBridgeResend yard lane lost s
  | .networkFlitArrival a ecc => Sys2Proof.Machine.execNetworkFlitArrival a ecc s
  | .updateCommandArrival unit e => Sys2Proof.Machine.execUpdateCommandArrival unit e s
  | .updateStart unit => Sys2Proof.Machine.execUpdateStart unit s
  | .updateCompletion unit err => Sys2Proof.Machine.execUpdateCompletion unit err s
  | .stashRelease unit idx => Sys2Proof.Machine.execStashRelease unit idx s
  | .droopStretch region => Sys2Proof.Machine.execDroopStretch region s
  | .stretchWindowBoundary => Sys2Proof.Machine.execStretchWindowBoundary s
  | .opChangeRailWrite => Sys2Proof.Machine.execOpChangeRailWrite s
  | .opChangeConfirmDeadline => Sys2Proof.Machine.execOpChangeConfirmDeadline s
  | .relockFreeze => Sys2Proof.Machine.execRelockFreeze s
  | .dividerSwitch => Sys2Proof.Machine.execDividerSwitch s
  | .clockSettled => Sys2Proof.Machine.execClockSettled s
  | .pllDrift yard => Sys2Proof.Machine.execPllDrift yard s
  | .pllRelocked yard => Sys2Proof.Machine.execPllRelocked yard s
  | .pllRelockTimeout yard => Sys2Proof.Machine.execPllRelockTimeout yard s
  | .pllLossOfLock yard quad => Sys2Proof.Machine.execPllLossOfLock yard quad s
  | .voltageLoopTick => Sys2Proof.Machine.execVoltageLoopTick s
  | .avsRailFault region => Sys2Proof.Machine.execAvsRailFault region s
  | .powerSample amps other => Sys2Proof.Machine.execPowerSample amps other s
  | .powerLimitStepDown => Sys2Proof.Machine.execPowerLimitStepDown s
  | .powerLimitStepUp => Sys2Proof.Machine.execPowerLimitStepUp s
  | .thermalThrottleStep => Sys2Proof.Machine.execThermalThrottleStep s
  | .thermalTrip => Sys2Proof.Machine.execThermalTrip s
  | .portTrainingComplete port lanes polarity reversed flight peer margin asym => Sys2Proof.Machine.execPortTrainingComplete port lanes polarity reversed flight peer margin asym s
  | .portDown port => Sys2Proof.Machine.execPortDown port s
  | .frameReceived port crcOk seq ack withheld fec packets => Sys2Proof.Machine.execFrameReceived port crcOk seq ack withheld fec packets s
  | .replayRequest port seq => Sys2Proof.Machine.execReplayRequest port seq s
  | .write n => Sys2Proof.Machine.execWrite n s
  | .reduce n => Sys2Proof.Machine.execReduce n s
  | .fabricNodeUnit fnode => Sys2Proof.Machine.execFabricNodeUnit fnode s
  | .reset => Sys2Proof.Machine.execReset s
  | .localResetComplete => Sys2Proof.Machine.execLocalResetComplete s
  | .time port peerRx peerTx hops => Sys2Proof.Machine.execTime port peerRx peerTx hops s
  | .timeHoldover => Sys2Proof.Machine.execTimeHoldover s
  | .snapshotFreeze => Sys2Proof.Machine.execSnapshotFreeze s
  | .snapshotWrite => Sys2Proof.Machine.execSnapshotWrite s
  | .snapshotWriteComplete ok => Sys2Proof.Machine.execSnapshotWriteComplete ok s
  | .recorderTrigger source unit => Sys2Proof.Machine.execRecorderTrigger source unit s
  | .recordWrite => Sys2Proof.Machine.execRecordWrite s
  | .dumpStart => Sys2Proof.Machine.execDumpStart s
  | .dumpComplete => Sys2Proof.Machine.execDumpComplete s
  | .monitorSample source unit value => Sys2Proof.Machine.execMonitorSample source unit value s
  | .readThresholdAdaptation unit margin => Sys2Proof.Machine.execReadThresholdAdaptation unit margin s
  | .patrolScrub addr err => Sys2Proof.Machine.execPatrolScrub addr err s
  | .powerStretch => Sys2Proof.Machine.execPowerStretch s
  | .railLowering => Sys2Proof.Machine.execRailLowering s
  | .flashProgramComplete => Sys2Proof.Machine.execFlashProgramComplete s
  | .pcieLinkTrained p => Sys2Proof.Machine.execPcieLinkTrained p s
  | .msixVectorUnmask p v => Sys2Proof.Machine.execMsixVectorUnmask p v s
  | .sidebandEventRead => Sys2Proof.Machine.execSidebandEventRead s

end Sys2Proof.Machine
end

