-- ==== Sys2Proof/Machine/Schedule.lean ====
section
/-! DEFINITION. Time: what the part does when no command waits (log entry 6). An idle step takes the first event whose time
has come, or issues the next word of a stream, or lets one arithmetic period pass (R23, R24, R288). Nothing that the
world outside decides happens here: those events come as commands only. -/
namespace Sys2Proof.Machine

/-! ## The engines of the part -/

def allM : List MEng := (List.finRange 4).flatMap fun y => (List.finRange 16).map fun k => ⟨y, k⟩
def allX : List XEng := (List.finRange 4).flatMap fun y => (List.finRange 8).map fun k => ⟨y, k⟩

/-- The engines execute (R23, R32): the run has begun and no freeze is in effect. -/
def Dev.engineTime (d : Dev) : Bool := d.run.inRun && d.sched.begun && !d.sched.hold.held

/-! ## Events whose time has come -/

/-- The event, if its time has come. -/
def ifDue (due : Bool) (i : Instr) : List Instr := if due then [i] else []

/-- Events of the hold controller, the anchors and the snapshot, in the order they are looked at in one sc. -/
def Dev.controlDue (d : Dev) : List Instr :=
  List.flatten [ifDue d.runFaultDue .runFault, ifDue d.freezeDue .freeze, ifDue (!d.horizonDue.isEmpty) .horizonCheck,
    ifDue d.anchorFreezeDue .anchorFreeze, ifDue d.anchorWork .anchorEvaluation, ifDue d.slipResumeDue .slipResume,
    ifDue d.releaseDue .holdRelease, ifDue d.resumeDue .enginesResume, ifDue (!d.sched.reports.isEmpty) .itemCompletion,
    ifDue d.snapFreezeDue .snapshotFreeze, ifDue d.snapWriteDue .snapshotWrite, ifDue d.relockFreezeDue .relockFreeze]

/-- What the array of an engine does first in an sc: the change of its shape, and the step that takes entries from its mangers (R84,
R86); nothing of one that has stopped or is fenced (R38, R112). -/
def Dev.arrayDue (d : Dev) (e : MEng) : List Instr :=
  if d.isStopped (mNo e) then []
  else
    let reshaped := match (d.m e).reshape with
      | some (t, _) => decide (t + 64 ≤ d.sched.sc)
      | none => false
    ifDue reshaped (.reshapeComplete e) ++ ifDue (d.stepDue e).isSome (.arrayStep e .none)

/-- What a matrix engine does after the steps: deliveries to its mangers, reads, drain rows; the checksum verdicts even of one that has
stopped (R97). -/
def Dev.matrixDue (d : Dev) (e : MEng) : List Instr :=
  if d.isStopped (mNo e) then ifDue (d.verdictDue e).isSome (.checksumVerdict e)
  else List.flatten [ifDue (d.feedDue e true).isSome (.mangerDelivery e true false .none),
    ifDue (d.feedDue e false).isSome (.mangerDelivery e false false .none),
    ifDue (d.readDue e true).isSome (.mangerDelivery e true true .none),
    ifDue (d.readDue e false).isSome (.mangerDelivery e false true .none),
    ifDue (d.rowReadDue e).isSome (.drainRow e true .none), ifDue (d.rowDue e).isSome (.drainRow e false .none),
    ifDue (d.verdictDue e).isSome (.checksumVerdict e), ifDue (d.bubbleDue e) (.bubble e)]

/-- Flits that leave the lunge rings, enter them, and are delivered to an engine (R100, R104, R111). -/
def Dev.ringDue (d : Dev) : List Instr :=
  (d.ring.filter fun f => f.out.isNone && decide (f.gone ≤ d.sched.sc)).map
    (fun f => .flitRemoval (Fin.ofNat 4 f.yard) f.ccw (Fin.ofNat 84 f.slot)) ++
  ((List.finRange 4).flatMap fun y => [false, true].flatMap fun ccw => (List.finRange 3).filterMap fun t =>
    if (d.injectionDue y.val ccw t.val).isSome then some (.ringInjection y ccw t .none) else none) ++
  (allM.flatMap fun e => [false, true].filterMap fun ccw =>
    if (d.deliveryDue e ccw).isSome then some (.ringDelivery e ccw .none) else none)

/-- Fixed-latency transfers (R235, R237): chunks to present and stream tiles to issue. -/
def Dev.transferDue (d : Dev) : List Instr :=
  allX.flatMap fun x =>
    ((d.x (xNo x)).fixed.map fun f => .chunkPresentation x (Fin.ofNat 8 f.no) .none) ++
    ((d.x (xNo x)).ctxs.filter fun c => c.desc.kind = 1).map (fun c => .streamTileIssue x (Fin.ofNat 64 c.no)) ++
    (List.range (d.x (xNo x)).waiting.length).map (fun i => .streamTileIssue x (Fin.ofNat 64 (16 + i)))

/-- What the network brings to its endpoints (R253, R256): a freeze holds up scheduled flits only (R260). -/
def Dev.networkDue (d : Dev) : List Instr :=
  ifDue (dueFlit d.sched.sc d.netFrozen d.net).isSome (.networkFlitArrival .scheduled .none) ++
    ifDue d.dynDue.isSome (.networkFlitArrival .dynamic .none)

/-- Events of the engines in the present sc: results first (R26), and the steps of the arrays before anything that fills a manger
(R86). -/
def Dev.engineDue (d : Dev) : List Instr :=
  if !d.engineTime then []
  else
    (if d.resultDue.isSome then [.resultDelivery .none] else []) ++ (allM.flatMap fun e => d.arrayDue e) ++ d.ringDue ++
    (d.addersDue.map fun a => .adderOutput (Fin.ofNat 4 a.1) (Fin.ofNat 48 a.2.1) a.2.2 .none) ++ d.transferDue ++
    (allM.flatMap fun e => d.matrixDue e)

/-- Events of the clocks, the loops and the time counter. -/
def Dev.clockEvents (d : Dev) : List Instr :=
  List.flatten [ifDue d.railWriteDue .opChangeRailWrite, ifDue d.confirmDue .opChangeConfirmDeadline,
    ifDue d.switchDue .dividerSwitch, ifDue d.settleDue .clockSettled, ifDue d.lowerDue .railLowering,
    ifDue d.windowDue .stretchWindowBoundary, ifDue d.voltageDue .voltageLoopTick, ifDue d.powerStretchDue .powerStretch,
    ifDue d.stepDownDue .powerLimitStepDown, ifDue d.stepUpDue .powerLimitStepUp,
    ifDue d.thermalDue .thermalThrottleStep, ifDue d.tripDue .thermalTrip, ifDue d.holdoverDue .timeHoldover,
    ifDue d.markDue .timeMark, [.dumpStart, .priTimeout .ha, .priTimeout .hb],
    (List.finRange 4).map fun y => .pllRelockTimeout y]

/-- Every event whose time may have come, in order; each looks for itself whether it has. -/
def Dev.dueNow (d : Dev) : List Instr := d.controlDue ++ d.engineDue ++ d.networkDue ++ d.clockEvents

/-- The first of some commands that changes anything: the state it leaves. -/
def firstEffect : List Instr → State → Option State
  | [], _ => none
  | i :: is, s =>
    match exec i s with
    | .next t => if t = s then firstEffect is s else some t
    | .fault _ | .refused _ => firstEffect is s

/-! ## Issue -/

/-- The next word of a stream to issue now, with the stream moved past it (R25, R178): yards, kinds and engines in order, none
of a unit that has stopped (R38). -/
def Dev.issueDue (d : Dev) : Option (Dev × Option Instr) :=
  if !d.engineTime then none
  else
    match d.sched.streams.find? fun e => !e.2.ended && decide (e.2.next ≤ d.sched.sc) && !d.sched.stopped.contains e.1 with
    | none => none
    | some (k, p) =>
      let put (p : StreamPos) : Dev := d.withSched fun s => { s with streams := Tab.insert s.streams k p }
      match d.sched.image.bind fun im => im.streams.find? fun g => g.engine = k with
      | none => some (put { p with ended := true }, none)
      | some g =>
        match g.word p.pc with
        | none => some (put { p with ended := true }, none)
        | some (_, i) => some (put (g.advance d.sched.sc p), some i)

/-- Issue that word: it executes as the command of its row does. -/
def State.issue (s : State) : Option State :=
  match s.dev.issueDue with
  | none => none
  | some (d, none) => some { s with dev := d }
  | some (d, some i) =>
    match exec i { s with dev := d } with
    | .next t => some t
    | .fault _ | .refused _ => some { s with dev := d }

/-! ## A period passes -/

/-- SCH_TC after one arithmetic period of this device's TREF (R286, R288): a correction is slewed in by one part in 10,000, and in
HOLDOVER the rate stays as it was. -/
def Dev.advanceTime (d : Dev) : Dev :=
  let n := d.periodLen
  let ref := d.sched.ref + n
  let rate := if d.timeState = 3 then d.fab.rate else d.fab.slew.sign
  let by_ : Int := if ref / 10000 = d.sched.ref / 10000 then 0 else rate
  let t := ((d.time : Int) + n + by_).toNat
  { d with
    sched := { d.sched with ref := ref, tc := t / 9 % 2 ^ 64, sub := t % 9 }
    fab := { d.fab with rate := rate, slew := if d.timeState = 3 then d.fab.slew else d.fab.slew - by_ } }

/-- The cycle counters: sc 0 begins at the first edge at or after mark B (R45); in a run sc counts unless a stretch holds it
(R23, R291); a freeze counts its length; the free count runs outside a run and with sc (R291, R292). -/
def Dev.advanceCycle (d : Dev) : Dev :=
  let s := d.sched
  if !d.run.inRun then d.mapClocks fun c => { c with free := c.free + 1 }
  else if s.hold.held then
    d.withHold fun h => { h with periods := h.periods + 1, releasing := h.releasing.map (· - 1) }
  else
    let d1 := d.withHold fun h => { h with releasing := h.releasing.map (· - 1) }
    if !s.begun then
      if s.hold.freeze ≠ some 0 && decide (d.time ≥ markTime s.base) then
        d1.withSched fun s => { s with begun := true, before := none }
      else d1.mapClocks fun c => { c with free := c.free + 1 }
    else if d.clocks.extra > 0 then d1.mapClocks fun c => { c with extra := c.extra - 1 }
    else
      { d1.withSched fun s => { s with sc := s.sc + 1, board := s.board.filter fun e => !(e.done && decide (e.due < s.sc)) } with
        netPorts := { d1.netPorts with handed := [] }, clocks := { d1.clocks with free := d1.clocks.free + 1 } }

/-- One arithmetic period passes: the network's two phases (R252), the banks and scrubbers (R202, R213), the fabric nodes' adders
(R261) and the fabric ports (R268, R285) work in it, then time and the cycles advance, and the update units work (R159). -/
def Dev.tick (d : Dev) : Dev :=
  let d1 := ((d.netPeriod.bankPeriod (!d.engineTime)).adderPeriod).advanceTime
  let d2 := ((d1.timePackets d.sched.ref).linkPeriod).advanceCycle.windowMode
  (d2.upd.map (·.1)).foldl Dev.updPeriod d2

/-- What the part does in a step with no command waiting (log entry 6): nothing in OFF and BOOT (R320); otherwise the first
event due, then the words to issue, then the end of the run, then the passing of a period. -/
def State.idle (s : State) : State :=
  if s.dev.up then
    match firstEffect s.dev.dueNow s with
    | some t => t
    | none =>
      match s.issue with
      | some t => t
      | none =>
        match firstEffect [.runEnd] s with
        | some t => t
        | none => { s with dev := s.dev.tick }
  else s

end Sys2Proof.Machine
end

