-- ==== Sys2Proof/Safety.lean ====
section
/-! DEFINITION. The words that claims about the part are stated in: a command that runs, a packet that is accepted, a register
that can be read, a byte of memory. -/
namespace Sys2Proof.Machine

/-! ## Commands that run -/

/-- `i` runs in `s` and leaves the device `d`; the queue and the part record are as they were. -/
def Runs (i : Instr) (s : State) (d : Dev) : Prop := exec i s = .next { s with dev := d }

/-- `i` runs in `s`, and the device it leaves satisfies `P`. -/
def Completes (i : Instr) (s : State) (P : Dev → Prop) : Prop := ∃ d, Runs i s d ∧ P d

/-! ## Packets -/

/-- The device once the arbiter has seen a packet: its sequence number is taken (R318). -/
def Dev.seen (d : Dev) : Dev := d.takeSeq.2

/-- The reply that is owed to the packet just seen. -/
def Dev.owed (d : Dev) (opc : Nat) (h : Hdr) : Owed := ⟨h, opc, d.takeSeq.1⟩

/-- The arbiter sees packets of a source now, and the management controller is there to answer (R320, R337). -/
def Dev.Hears (d : Dev) (h : Hdr) : Prop :=
  d.run ≠ .off ∧ (d.run = .boot → h.src = .sideband ∧ d.boot.stage ≠ 0) ∧ d.boot.restarting = false

/-- A packet passes the arbiter's checks (R319): its sender holds the claim where it must, the run state accepts it, and no
long command is in its way. -/
def Dev.Accepts (d : Dev) (opc : Nat) (h : Hdr) : Prop :=
  d.Hears h ∧ ∃ c, cmdRow opc = some c ∧ (c.claim = true → d.claim = some h.src) ∧ c.accepts d.run = true ∧
    (c.long = true ∨ c.alone = true → d.long = none)

/-- Every command that arrives as a packet of its own row: its opcode (Table 16-6) and its header. -/
def commandOf : Instr → Option (Nat × Hdr)
  | .identify h => some (0x01, h)
  | .getStatus h => some (0x02, h)
  | .claim h _ => some (0x03, h)
  | .release h => some (0x04, h)
  | .loadImage h _ _ _ => some (0x10, h)
  | .verifyImage h _ _ _ => some (0x11, h)
  | .start h _ _ => some (0x12, h)
  | .halt h => some (0x13, h)
  | .resume h => some (0x14, h)
  | .abort h => some (0x15, h)
  | .snapshotAt h _ _ _ _ => some (0x16, h)
  | .restore h _ _ _ => some (0x17, h)
  | .setOperatingPoint h _ _ _ => some (0x20, h)
  | .setPowerLimit h _ _ => some (0x21, h)
  | .fenceEngine h _ _ _ => some (0x22, h)
  | .unfenceEngine h _ _ _ => some (0x23, h)
  | .setMembership h _ _ _ _ | .resetAll h _ _ _ => some (0x24, h)
  | .readReg h _ => some (0x30, h)
  | .writeReg h _ _ | .expertEnable h _ | .retrain h _ _ | .clkPdCtl h _ => some (0x31, h)
  | .readRecorder h _ _ _ _ _ => some (0x32, h)
  | .clear h | .trigger h _ | .dump h | .setDump h _ | .getDump h => some (0x33, h)
  | .readMonitor h _ _ => some (0x34, h)
  | .configMonitor h _ _ _ _ | .clearOnly h _ => some (0x35, h)
  | .fwStageBegin h _ _ => some (0x40, h)
  | .fwStageData h _ _ _ _ => some (0x41, h)
  | .fwStageCommit h => some (0x42, h)
  | .fwStatus h => some (0x43, h)
  | .windowMap h _ _ _ _ => some (0x60, h)
  | .windowUnmap h _ => some (0x61, h)
  | .transferResume h _ _ => some (0x62, h)
  | .fabricTrain h _ _ _ | .fabricTakeDown h _ _ => some (0x70, h)
  | .linkStatus h _ => some (0x71, h)
  | .timeSyncStatus h => some (0x72, h)
  | _ => none

/-- Once the arbiter accepts the packet `i` and `P` holds, `i` runs and leaves what `f` makes of the device; its reply is owed. -/
def Takes (i : Instr) (opc : Nat) (h : Hdr) (P : Dev → Prop) (f : Owed → Dev → Dev) : Prop :=
  ∀ s, s.dev.Accepts opc h → P s.dev.seen → Runs i s (f (s.dev.owed opc h) s.dev.seen)

/-- Once the arbiter accepts the packet `i` and `P` holds, `i` runs, leaves what `f` makes of the device, and completes with
the status `st` and the RESULT that `res` finds in the device. -/
def Answers (i : Instr) (opc : Nat) (h : Hdr) (P : Dev → Prop) (st : Status) (res : Dev → Nat) (f : Dev → Dev) : Prop :=
  Takes i opc h P fun o d => (f d).complete o st (res d)

/-! ## Words -/

/-- An instruction with nothing for error correction to find, as a stream's word spells it. -/
def cleanInstr : Instr → Instr
  | .vld e f _ => .vld e f .none
  | .sld e f _ => .sld e f .none
  | i => i

/-! ## Memory and engine registers -/

/-- One byte of memory at its place: a tier's byte at its device physical address, an on-chip byte at that of its position. -/
def Dev.byteAt (d : Dev) (k : Nat) : Nat := (Tab.get 0#8 d.mem k).toNat

/-- Two devices hold the same memory. -/
def SameMemory (a b : Dev) : Prop := ∀ k, a.byteAt k = b.byteAt k

/-! ## Results of engines -/

/-- From `d` to `d'` the results `ts`, in this order, are queued to be written `lat` sc on (R26). -/
def Dev.Queued (d d' : Dev) (lat : Nat) (ts : List Target) : Prop :=
  d'.sched.inFlight = d.sched.inFlight ++ ts.mapIdx fun i t => ⟨d.sched.sc + lat, d.sched.order + i, t⟩

/-- Memory and the registers of every engine are as they were: nothing but what is in flight has changed of them. -/
def SameEngines (a b : Dev) : Prop := a.mem = b.mem ∧ a.mEng = b.mEng ∧ a.vEng = b.vEng ∧ a.sEng = b.sEng

/-- The elements a source of a lane instruction has (R146): an immediate, a segment broadcast, a register. -/
def Dev.source (d : Dev) (e : VEng) (ty k reg ext : Nat) : List Nat :=
  if k = 2 then List.replicate (tyCount ty) (if ty = 1 then ext % 65536 else ext % 2 ^ 32)
  else if k = 1 then
    (List.range (tyCount ty)).map fun i => nth 0 (elemsOf ty (d.vRead e (bits ext 5 0))) (bits ext 16 6 + i / 2 ^ bits ext 20 17)
  else elemsOf ty (d.vRead e reg)

def Dev.srcA (d : Dev) (e : VEng) (f : LaneF) : List Nat := d.source e f.ty.toNat 0 f.va.toNat 0
def Dev.srcB (d : Dev) (e : VEng) (f : LaneF) : List Nat := d.source e f.ty.toNat f.bk.toNat f.vb.toNat f.ext1.toNat
def Dev.srcC (d : Dev) (e : VEng) (f : LaneF) : List Nat := d.source e f.ty.toNat f.ck.toNat f.vc.toNat f.ext2.toNat

/-- What is queued for elements with their flags: those whose mask bit is 1, and the flags that those have raised (R142, R145). -/
def vTargets (e : VEng) (vd ty mask : Nat) (rs : List (Nat × Nat)) : List Target :=
  let flags := orAll ((List.range rs.length).map fun i => if bit mask i then (nth (0, 0) rs i).2 else 0)
  .vreg e vd (decide (ty = 1)) 0 ((List.range rs.length).map fun i => if bit mask i then some (nth (0, 0) rs i).1 else none) ::
    (if flags = 0 then [] else [.vstat e flags])

/-- The lane instruction `i` of `e` gives every element whose mask bit is 1 what `g` makes of its sources, when the latency of its
class has elapsed; memory and the registers of the engines are as they were until then. -/
def LaneGives (i : Instr) (e : VEng) (f : LaneF) (cls : Nat) (g : Nat → Nat → Nat → Nat → Nat × Nat) : Prop :=
  ∀ s : State, Completes i s fun d =>
    s.dev.Queued d (s.dev.latency cls) (vTargets e f.vd.toNat f.ty.toNat (s.dev.maskRead e f.mask.toNat)
      ((List.range (tyCount f.ty.toNat)).map fun k => g (s.dev.nonce + k) (nth 0 (s.dev.srcA e f) k) (nth 0 (s.dev.srcB e f) k)
        (nth 0 (s.dev.srcC e f) k))) ∧ SameEngines d s.dev

/-- The scalar instruction `i` of `e` gives register RD what `g` makes of RA, of RB or `imm` in its place, and of RC, when the
latency of its class has elapsed; until then memory, every register of an engine and every register of the part is as it was. -/
def ScalarGives (i : Instr) (e : SEng) (f : IntF) (cls imm : Nat) (g : Nat → Nat → Nat → Nat) : Prop :=
  ∀ s : State, Completes i s fun d =>
    s.dev.Queued d (s.dev.latency cls) [.sreg e f.rd.toNat (g (s.dev.sRead e f.ra.toNat)
      (if f.imm then imm else s.dev.sRead e f.rb.toNat) (s.dev.sRead e f.rc.toNat))] ∧
    SameEngines d s.dev ∧ d.regs = s.dev.regs

/-- The bytes at offsets of one instance of a space can be read or written by the unit that it belongs to: they exist, they are
allocated in a run, and their place is not fenced (R200, R209, R353). -/
def Dev.Open (d : Dev) (y space e : Nat) (offs : List Nat) : Prop :=
  d.fencedPlace y space e = false ∧
    ∀ o ∈ offs, o < spaceSize space ∧ (d.run.inRun = true → d.stallAllocated y space e o = true)

/-- A read finds bytes as they stand: no word of memory holds an error that it would meet (R211, R225), and nothing in flight will
still write one of them (R26). -/
def Dev.Steady (d : Dev) (addrs : List Nat) : Prop := d.errs = [] ∧ ∀ a ∈ addrs, d.inFlightByte a = false

/-- The same of bytes at offsets of one instance of a space. -/
def Dev.Settled (d : Dev) (y space e : Nat) (offs : List Nat) : Prop := d.Steady (offs.map (onchipAddr y space e))

/-- The bytes of a transfer engine's request are on their way through the network to an endpoint (R234, R252). -/
def Dev.Carries (d : Dev) (xn id : Nat) (dst : Nat × Nat) (bs : List Nat) : Prop :=
  ∀ i < bs.length, ∃ f ∈ d.dyn, f.dst = dst ∧ ∃ off l, f.cargo = .data xn id off l ∧ off ≤ i ∧ l[i - off]? = bs[i]?

/-- A change to operating point `op` is pending: it takes effect 32,000 tc on, and CLK_OP shows it (R294, R305). -/
def Dev.followsWanted (d : Dev) (op : Nat) : Prop :=
  ∃ x, d.clocks.change = some x ∧ x.target = op ∧ x.time = d.sched.tc + 32000 ∧ d.flag fCLK_OP_PENDING [] = true ∧
    d.getF fCLK_OP_TARGET [] = op

/-- The bytes that stand there. -/
def Dev.bytesAt (d : Dev) (y space e : Nat) (offs : List Nat) : List Nat := offs.map fun o => d.peek (onchipAddr y space e o)

/-- A block of FP32 values that stands in vector memory (R155). -/
def Dev.blockAt (d : Dev) (e : VEng) (base n k : Nat) : Block :=
  let bs := d.bytesAt e.yard.val 3 e.idx.val (blockOffs base n k)
  (List.range n).map fun i => (List.range k).map fun c => leNat ((bs.drop (4 * (i * k + c))).take 4)

end Sys2Proof.Machine
end

