-- ==== Sys2Proof/Certificates/Slice0/Obligations.lean ====
section
/-! DEFINITION. The statements for the provers. -/

open Sys2Proof Sys2Proof.Machine

/-! ## The step -/

/-- A command at the front of the queue runs as `exec` runs it with the rest of the queue; on an empty queue the step is the
part's own idle step (log entry 6), and no word of the table spells a command.

Every command answers a next state, never a fault or a refusal, in which the queue and the part record (R339) are as they
were; so every step takes exactly one command off the queue and keeps the part record. -/
def Obligations.StepRunsFrontCommand : Prop :=
  ((∀ (c : Instr) (s : State), step { s with pending := c :: s.pending } = exec c s) ∧
  (∀ s : State, s.pending = [] → step s = .next s.idle) ∧
  (∀ (s : State) (n w : Nat), s.withFetchWord n w = s)) ∧
  (∀ (c : Instr) (s : State), Completes c s fun _ => True) ∧
  (∀ (s : State), ∃ t, step s = .next t ∧ t.part = s.part ∧ t.pending = s.pending.tail)

/-- Right after reset (log entry 1: entry to READY at the end of boot): no command waits, no claim is held, no image is
loaded, memory lists nothing, boot has completed stage 9, and the registers of Table 2-10 and Table 15-4 that the part keeps
elsewhere read 0. -/
def Obligations.ResetLeaves : Prop :=
  State.reset.pending = [] ∧ State.reset.dev.run = .ready ∧ State.reset.dev.claim = none ∧ State.reset.dev.long = none ∧
  State.reset.dev.sched.image = none ∧ Memory.wf State.reset.dev.mem = true ∧ (∀ k, State.reset.dev.byteAt k = 0) ∧
  State.reset.dev.readReg .rSCH_SC [] = 0 ∧ State.reset.dev.readReg .rSCH_HOLD_STAT [] = 0 ∧
  State.reset.dev.readReg .rCLK_PD_STAT [] = 0xFFFFFFFFFF ∧ (∀ y < 4, State.reset.dev.getF fCLK_PLL_DIVIDER [y] = 12) ∧
  State.reset.dev.getF fHST_CTL_CMD_TIMEOUT_MS [] = 1000

/-! ## Words of instruction streams -/

/-- Every M word (Tables 9-1, 9-2, 9-6): what the encoding packs, the decoder takes apart again, the issue delta and every
field at every value the word admits; and a word that decodes is the word its instruction is written as, so that no reserved
bit is dropped. -/
def Obligations.MatrixWordsRoundTrip : Prop :=
  (∀ (delta : BitVec 12) (i : Instr) (w : BitVec 128), encodeM delta i = some w → ∃ e, decodeM e w = some (delta, i)) ∧
  (∀ (e : MEng) (w : BitVec 128) (delta : BitVec 12) (i : Instr), decodeM e w = some (delta, i) → encodeM delta i = some w)

/-- Every V word (Tables 9-1, 9-3, 9-7 to 9-9), in the same two directions. -/
def Obligations.VectorWordsRoundTrip : Prop :=
  (∀ (delta : BitVec 12) (i : Instr) (w : BitVec 128), encodeV delta i = some w →
    ∃ e, decodeV e w = some (delta, cleanInstr i)) ∧
  (∀ (e : VEng) (w : BitVec 128) (delta : BitVec 12) (i : Instr), decodeV e w = some (delta, i) → encodeV delta i = some w)

/-- Every S word (Tables 9-1, 9-4, 9-10), in the same two directions. -/
def Obligations.ScalarWordsRoundTrip : Prop :=
  (∀ (delta : BitVec 12) (i : Instr) (w : BitVec 64), encodeS delta i = some w →
    ∃ e, decodeS e w = some (delta, cleanInstr i)) ∧
  (∀ (e : SEng) (w : BitVec 64) (delta : BitVec 12) (i : Instr), decodeS e w = some (delta, i) → encodeS delta i = some w)

/-! ## The arbiter, replies and events -/

/-- Checks 3 and 4 of R319 for every command that arrives as a packet, in their order, with what stands before them: in OFF
nothing is seen, in BOOT nothing of a host (R320) and nothing before the boot ROM has started (R341), and while the management controller restarts a packet is seen and waits
(R337). A packet that fails a check changes nothing but what its own reply changes. -/
def Obligations.ArbiterChecksInOrder : Prop :=
  ∀ (i : Instr) (opc : Nat) (h : Hdr) (s : State), commandOf i = some (opc, h) →
    (s.dev.run = .off ∨ (s.dev.run = .boot ∧ (h.src ≠ .sideband ∨ s.dev.boot.stage = 0)) → Runs i s s.dev) ∧
    (s.dev.run ≠ .off → (s.dev.run = .boot → h.src = .sideband ∧ s.dev.boot.stage ≠ 0) →
      (s.dev.boot.restarting = true → Runs i s { s.dev.seen with cut := s.dev.cut ++ [s.dev.owed opc h] }) ∧
      (s.dev.boot.restarting = false → ∃ c, cmdRow opc = some c ∧
        (c.claim = true → s.dev.claim ≠ some h.src → Runs i s (s.dev.seen.complete (s.dev.owed opc h) .notClaimed 0)) ∧
        ((c.claim = true → s.dev.claim = some h.src) →
          (c.accepts s.dev.run = false ∨ ((c.long = true ∨ c.alone = true) ∧ s.dev.long ≠ none)) →
            Runs i s (s.dev.seen.complete (s.dev.owed opc h) .busy 0))))

/-- A reply goes into the next entry of its ring (R315): an entry that is free is written where the tail stands, with PHASE
as the pass has it, and the tail moves on, wrapping and toggling PHASE at the ring's end; with no free entry, or on a port
that cannot write (R335), nothing is written and the reply waits; on a ring that is not enabled it is discarded (R313). PHASE
is 1 in a ring's first pass, from its enabling on; the host frees entries by writing RQ_HEAD, and the entries that it has not
freed are those that count as used. -/
def Obligations.ReplyEntryWritten : Prop :=
  ∀ (d : Dev) (p : Port) (k : Fin 4) (irq : Bool) (m : Reply), m.event = false →
    let r := (d.port p).ring k
    let r' := ((d.replyHost p k irq m).port p).ring k
    (r.rqEn = true → (d.port p).canWrite = true → r.waiting = [] → r.used < 2 ^ r.rqSize → r.rqTail < 2 ^ r.rqSize →
      (∃ sent, (d.replyHost p k irq m).out = sent ++ .reply p k r.rqTail r.phase m :: d.out ∧
        (sent = [] ∨ sent = [.msix p k.val] ∧ irq = true)) ∧
      r'.rqTail = (r.rqTail + 1) % 2 ^ r.rqSize ∧ (r'.phase = r.phase ↔ r.rqTail + 1 < 2 ^ r.rqSize) ∧ r'.used = r.used + 1) ∧
    (r.rqEn = true → (d.port p).canWrite = false ∨ r.waiting ≠ [] ∨ 2 ^ r.rqSize ≤ r.used →
      (d.replyHost p k irq m).out = d.out ∧ r' = { r with waiting := r.waiting ++ [(irq, m)] }) ∧
    (r.rqEn = false → d.replyHost p k irq m = d) ∧
    (∀ (s : State) (base v : Word), s.dev = d → r.rqEn = false → 4 ≤ v.toNat % 16 → v.toNat % 16 ≤ 12 → base.toNat % 4096 = 0 →
      Completes (.ringEnable p true k base v) s fun t =>
        ((t.port p).ring k).rqEn = true ∧ ((t.port p).ring k).phase = true ∧ ((t.port p).ring k).rqTail = 0 ∧
        ((t.port p).ring k).used = 0) ∧
    (∀ (s : State) (v : Word), s.dev = d → r.rqEn = true → v.toNat < 2 ^ r.rqSize → (d.port p).events = [] →
      (∀ j : Fin 4, ((d.port p).ring j).waiting = []) →
      Completes (.rqHead p k v) s fun t =>
        ((t.port p).ring k).rqHead = v.toNat ∧ ((t.port p).ring k).used = r.used - r.freed v.toNat)

/-- Each event takes the next number of the arbiter (R318), whoever receives it, and nothing else of the device but counters,
the recorder's queue, the two ports and the sideband changes. -/
def Obligations.EventTakesNumber : Prop :=
  ∀ (d : Dev) (dest : EventTo) (kind : Nat) (st : Status) (res : Nat),
    ((d.event dest kind st res).word .rHST_SEQ []).toNat = ((d.word .rHST_SEQ []).toNat + 1) % 2 ^ 64 ∧
    ∃ g q a b sb out, d.event dest kind st res =
      { d with regs := g, recorder := q, portA := a, portB := b, sideband := sb, out := out }

/-- IDENTIFY and GET_STATUS reply with the RESULT of R324 and change nothing else; in BOOT, where R341 puts SEC_BOOT in place
of SCH_SC, GET_STATUS replies with that. -/
def Obligations.IdentityAndStatus : Prop :=
  (∀ h, Answers (.identify h) 0x01 h (fun _ => True) .ok (fun d => 0x54344456 + (if d.cfg.steppingB0 then 2 ^ 32 else 0)
    + sourceCode h.src * 2 ^ 40 + d.getF fSEC_FW_VERSION [] * 2 ^ 48 + d.cfg.serial % 2 ^ 64 * 2 ^ 64) id) ∧
  (∀ h, Answers (.getStatus h) 0x02 h (fun d => d.run ≠ .boot) .ok
    (fun d => d.hstState + d.sched.shown * 2 ^ 64) id) ∧
  (∀ h, Answers (.getStatus h) 0x02 h (fun d => d.run = .boot) .ok
    (fun d => d.hstState + (d.word .rSEC_BOOT []).toNat * 2 ^ 64) id)

/-- READ_REG (R325), LINK_STATUS (R270), TIME_SYNC_STATUS (R286), FW_STATUS (R347) and GET_DUMP
(R367) complete with OK and the RESULT their rules give, and change nothing else.

The control claim (R322): at most one source holds it. CLAIM gives it to the sender where it is free or its own; with FORCE
the sideband takes it and the former holder receives CLAIM_LOST; FORCE from a host port completes with BAD_PARAM (also where
the claim is free: the model's order of the checks, log entry 18), everything else with BUSY. RELEASE frees it for its holder
and is NOT_CLAIMED for any other. -/
def Obligations.StatusAndClaimCommands : Prop :=
  -- Status commands answer
  ((∀ h a r x, regAtAddress a.toNat = some (r, x) →
    Answers (.readReg h a) 0x30 h (fun _ => True) .ok (fun d => (d.readReg r x).toNat) id) ∧
  (∀ h (port : Byte), port.toNat < 24 → Answers (.linkStatus h port) 0x71 h (fun _ => True) .ok (fun d =>
    (d.word .rFAB_PORT_STAT [port.toNat]).toNat + (d.word .rFAB_PORT_EQ [port.toNat]).toNat * 2 ^ 64) id) ∧
  (∀ h, Answers (.timeSyncStatus h) 0x72 h (fun _ => True) .ok
    (fun d => (d.word .rFAB_TIME_STAT []).toNat + (d.word .rFAB_TIME_OFS []).toNat * 2 ^ 64) id) ∧
  (∀ h, Answers (.fwStatus h) 0x43 h (fun _ => True) .ok (fun d => (d.word .rSEC_FW []).toNat + d.secLoft * 2 ^ 64) id) ∧
  (∀ h, Answers (.getDump h) 0x33 h (fun _ => True) .ok
    (fun d => (if d.flash.active.dumpOnFault then 1 else 0) + d.flash.nextSlot * 2 ^ 8) id)) ∧
  -- Claim and release
  ((∀ h (f : Byte), f = 0 ∨ f = 1 ∧ h.src = .sideband →
    Answers (.claim h f) 0x03 h (fun d => d.claim = none ∨ d.claim = some h.src) .ok (fun _ => 0)
      (fun d => { d with claim := some h.src })) ∧
  (∀ h old, h.src = .sideband → old ≠ .sideband → Takes (.claim h 1) 0x03 h (fun d => d.claim = some old)
    fun o d => (Dev.complete { d with claim := some .sideband } o .ok 0).event (.only old) 0x04 .ok 3) ∧
  (∀ h, h.src ≠ .sideband → Answers (.claim h 1) 0x03 h (fun _ => True) .badParam (fun _ => 0) id) ∧
  (∀ h, Answers (.claim h 0) 0x03 h (fun d => d.claim ≠ none ∧ d.claim ≠ some h.src) .busy (fun _ => 0) id) ∧
  (∀ h, Answers (.release h) 0x04 h (fun d => d.claim = some h.src) .ok (fun _ => 0) (fun d => { d with claim := none })) ∧
  (∀ h, Answers (.release h) 0x04 h (fun d => d.claim ≠ some h.src) .notClaimed (fun _ => 0) id))

/-! ## Recorder and monitors -/

/-- The recorder's commands (R367). CLEAR makes every record zero and HEAD 0; TRIGGER fires source 33 with UNIT from VALUE;
DUMP starts a dump into the next slot unless one is in progress (R368); SET_DUMP sends the setting to flash, and its reply
follows the write; READ_RECORDER writes the records it names, oldest first, from the buffer or from a dump.

RECORD_WRITE takes the oldest trigger (R364): with nothing to merge into it writes the record of Table 18-5 at HEAD, with
the next sequence number (0 is never used), and moves HEAD on; DUMP_START starts the dump that a stopping fault has set, when
its 10 ms are over, and DUMP_COMPLETE keeps the record buffer in its slot and moves to the next of 61 (R368). -/
def Obligations.RecorderCompletes : Prop :=
  -- Recorder commands complete
  ((∀ h s, s.dev.Accepts 0x33 h → ∃ d, Runs (.clear h) s (d.complete (s.dev.owed 0x33 h) .ok 0) ∧ d.getF fREC_STAT_HEAD [] = 0 ∧
    d.recorder.since = 0 ∧ (∀ i < 8192, d.recordBytes i = List.replicate 128 0) ∧ SameMemory d s.dev) ∧
  (∀ h v, Answers (.trigger h v) 0x33 h (fun _ => True) .ok (fun _ => 0) (fun d => d.fire 33 (v.toNat % 65536))) ∧
  (∀ h, Answers (.dump h) 0x33 h (fun d => d.recorder.dump = none) .ok (fun _ => 0)
    (fun d => { d with recorder := { d.recorder with dump := some d.flash.nextSlot } })) ∧
  (∀ h, Answers (.dump h) 0x33 h (fun d => d.recorder.dump ≠ none) .ok (fun _ => 0) id) ∧
  (∀ h v, Takes (.setDump h v) 0x33 h (fun _ => True) fun o d => { d with flash := { d.flash with
    ops := d.flash.ops ++ [⟨some o, some { d.flash.newest with dumpOnFault := v.toNat % 2 = 1 }⟩] } }) ∧
  (∀ h (slot : Byte) (first count : BitVec 32) (dst : Word), 0 < count.toNat → count.toNat ≤ 8192 →
    Answers (.readRecorder h 0 slot first count dst) 0x32 h (fun d => d.windowDest h.src dst.toNat (128 * count.toNat)) .ok
      (fun _ => 0) (fun d => d.writeDest dst.toNat ((List.range count.toNat).flatMap fun k =>
        d.recordBytes ((first.toNat + k) % 8192)))) ∧
  (∀ h (slot : Byte) (first count : BitVec 32) (dst : Word) buf, 0 < count.toNat → count.toNat ≤ 8192 →
    Answers (.readRecorder h 1 slot first count dst) 0x32 h (fun d => d.windowDest h.src dst.toNat (128 * count.toNat) ∧
      Tab.find d.flash.dumps slot.toNat = some buf) .ok (fun _ => 0)
      (fun d => d.writeDest dst.toNat ((List.range count.toNat).flatMap fun k => (List.range 16).flatMap fun j =>
        leBytes 8 (Tab.get 0 buf (128 * ((first.toNat + k) % 8192) + 8 * j)))))) ∧
  -- Recorder events complete
  ((∀ (s : State) t rest, s.dev.recorder.queue = t :: rest → t.source < 256 → s.dev.recorder.last = none →
    s.dev.recFull = false →
    let d := s.dev
    let seq := nextRecordSeq (d.getF fREC_STAT_SEQ [])
    Completes .recordWrite s fun u =>
      u.recordBytes (d.getF fREC_STAT_HEAD []) = recordOf seq t.source (d.triggerSet t.source) t.unit t.tc t.tc 0
        (if d.recorder.lost then 2 else 0) (d.captureSet (d.triggerSet t.source)) ∧
      u.getF fREC_STAT_HEAD [] = (d.getF fREC_STAT_HEAD [] + 1) % 8192 ∧ u.getF fREC_STAT_SEQ [] = seq ∧
      u.recorder.queue = rest ∧ u.recorder.lost = false ∧ u.recorder.last = some (d.getF fREC_STAT_HEAD [])) ∧
  (∀ (s : State) t, s.dev.recorder.dumpAt = some t → t ≤ s.dev.sched.ref → s.dev.recorder.dump = none →
    Runs .dumpStart s { s.dev with recorder := { s.dev.recorder with dumpAt := none, dump := some s.dev.flash.nextSlot } }) ∧
  (∀ (s : State) k, s.dev.recorder.dump = some k →
    Runs .dumpComplete s { s.dev with
      recorder := { s.dev.recorder with dump := none }
      flash := { s.dev.flash with dumps := Tab.insert s.dev.flash.dumps k s.dev.recordBuffer, nextSlot := (k + 1) % 61 } }))

/-- A trigger source that fires while it is enabled, with the event bit that Table 18-4 names for its unit set, and while the recorder
takes triggers joins the queue with the time it fired at (R362, R364); one that is not enabled, or whose event bit is 0, does
nothing; one that cannot be taken is lost and counted.

The monitors (R370, R371): READ_MONITOR answers MIN, MAX and SAMPLES and, where DST is not 0, writes the channel's 256
bytes there; CONFIG_MONITOR writes CFG and LIMIT of a channel and resets its statistics, with CLEAR_ONLY only the latter;
CLEAR_ONLY is that second form; MONITOR_SAMPLE gives a source's value to every channel that watches it, and a junction
temperature is kept for its sensor. -/
def Obligations.TriggersAndMonitorsComplete : Prop :=
  -- Triggers queue
  (∀ (source : BitVec 6) (unit : BitVec 16) (s : State), let d := s.dev
    (bit (d.getF fREC_TRIG_EN_EN []) source.toNat = false ∨ d.eventBit source.toNat unit.toNat = false →
      Runs (.recorderTrigger source unit) s d) ∧
    (bit (d.getF fREC_TRIG_EN_EN []) source.toNat = true → d.eventBit source.toNat unit.toNat = true →
      (d.flag fREC_CTL_PAUSE [] = false → d.recFull = false → d.recorder.queue.length < 64 →
        Runs (.recorderTrigger source unit) s { d with recorder := { d.recorder with
          queue := d.recorder.queue ++ [⟨source.toNat, unit.toNat, d.sched.tc⟩] } }) ∧
      (d.flag fREC_CTL_PAUSE [] = true ∨ d.recFull = true ∨ 64 ≤ d.recorder.queue.length →
        Completes (.recorderTrigger source unit) s fun t => t.recorder.queue = d.recorder.queue ∧ t.recorder.lost = true ∧
          (t.word .rREC_LOST_CNT []).toNat = ((d.word .rREC_LOST_CNT []).toNat % 2 ^ 48 + 1) % 2 ^ 48))) ∧
  -- Monitors complete
  ((∀ h (c : Byte), c.toNat < 64 → Answers (.readMonitor h c 0) 0x34 h (fun _ => True) .ok
    (fun d => d.getF fMON_MINMAX_MIN [c.toNat] + d.getF fMON_MINMAX_MAX [c.toNat] * 2 ^ 32
      + d.getF fMON_SAMPLES_COUNT [c.toNat] * 2 ^ 64) id) ∧
  (∀ h (c : Byte) (dst : Word), c.toNat < 64 → dst ≠ 0 → ∀ s, s.dev.Accepts 0x34 h → s.dev.seen.windowDest h.src dst.toNat 256 →
    Runs (.readMonitor h c dst) s
      ((s.dev.seen.writeDest dst.toNat (s.dev.seen.monitorBlock c.toNat)).complete (s.dev.owed 0x34 h) .ok
        (s.dev.seen.getF fMON_MINMAX_MIN [c.toNat] + s.dev.seen.getF fMON_MINMAX_MAX [c.toNat] * 2 ^ 32
          + s.dev.seen.getF fMON_SAMPLES_COUNT [c.toNat] * 2 ^ 64))) ∧
  (∀ h (c : Byte) (cfg : Word) (limit : BitVec 32), c.toNat < 64 →
    bits cfg.toNat 55 48 ≠ 0 → bits cfg.toNat 55 48 ≤ 12 → monitorUnitOk (bits cfg.toNat 55 48) (bits cfg.toNat 47 40) = true →
    bits cfg.toNat 36 32 ≤ 24 → bits cfg.toNat 60 56 = 0 → bits cfg.toNat 39 37 = 0 →
    Answers (.configMonitor h c 0 cfg limit) 0x35 h (fun _ => True) .ok (fun _ => 0) (fun d =>
      ((d.setWord .rMON_CFG [c.toNat] cfg).setWord .rMON_LIMIT [c.toNat] (BitVec.ofNat 64 limit.toNat)).clearMonitor c.toNat)) ∧
  (∀ h (c : Byte) cfg limit, c.toNat < 64 →
    Answers (.configMonitor h c 1 cfg limit) 0x35 h (fun _ => True) .ok (fun _ => 0) (fun d => d.clearMonitor c.toNat)) ∧
  (∀ h (c : Byte), c.toNat < 64 →
    Answers (.clearOnly h c) 0x35 h (fun _ => True) .ok (fun _ => 0) (fun d => d.clearMonitor c.toNat)) ∧
  (∀ (source unit : Byte) (v : BitVec 64) (s : State), source ≠ 8 →
    Runs (.monitorSample source unit v) s (s.dev.sample source.toNat unit.toNat (signed 64 v.toNat))) ∧
  (∀ (unit : Byte) (v : BitVec 64) (s : State), unit.toNat < 16 →
    Completes (.monitorSample 8 unit v) s fun t =>
      Tab.find t.clocks.temps unit.toNat = some (signed 64 v.toNat) ∧
      (∀ k, k ≠ unit.toNat → Tab.find t.clocks.temps k = Tab.find s.dev.clocks.temps k)))

/-- What a sample does to a channel that watches its source on its unit (R370; a value of more than 32 bits is clamped, R369):
MIN and MAX, SAMPLES, and one bin, which sticks at its largest value; every other bin stays. With LIMIT_EN, a sample beyond LIMIT
fires trigger source 28 for the channel, unless one did in the last ms. -/
def Obligations.MonitorSampleCounts : Prop :=
  ∀ (source unit : Byte) (v : BitVec 64) (s : State) (c : Nat), c < 64 → s.dev.flag fMON_CFG_ENABLE [c] = true →
    s.dev.getF fMON_CFG_SOURCE [c] = source.toNat →
    (s.dev.getF fMON_CFG_UNIT [c] = 0xFF ∨ s.dev.getF fMON_CFG_UNIT [c] = unit.toNat) →
    let d := s.dev
    let x : Int := max (-2147483648) (min 2147483647 (signed 64 v.toNat))
    let base := signed 32 (d.getF fMON_CFG_BASE [c])
    let width : Int := ((2 ^ d.getF fMON_CFG_SHIFT [c] : Nat) : Int)
    let bin : Nat := if x < base then 0 else if base + 30 * width ≤ x then 31 else 1 + ((x - base) / width).toNat
    let field (b : Nat) : Field := if b % 2 = 0 then fMON_BIN_BIN_LO else fMON_BIN_BIN_HI
    let limit := signed 32 (d.getF fMON_LIMIT_LIMIT [c])
    let fires := d.flag fMON_CFG_LIMIT_EN [c] = true ∧ (if d.flag fMON_CFG_ABOVE [c] then limit < x else x < limit) ∧
      ∀ t, Tab.find d.monLast c = some t → t + 9 * 800000 ≤ d.sched.ref
    let fired (d : Dev) := d.recorder.queue.filter fun t => t.source = 28 && t.unit = c
    Completes (.monitorSample source unit v) s fun t =>
      signed 32 (t.getF fMON_MINMAX_MIN [c]) = min (signed 32 (d.getF fMON_MINMAX_MIN [c])) x ∧
      signed 32 (t.getF fMON_MINMAX_MAX [c]) = max (signed 32 (d.getF fMON_MINMAX_MAX [c])) x ∧
      t.getF fMON_SAMPLES_COUNT [c] = (d.getF fMON_SAMPLES_COUNT [c] + 1) % 2 ^ 48 ∧
      (∀ b < 32, t.getF (field b) [c, b / 2] =
        if b = bin then min (d.getF (field b) [c, b / 2] + 1) (2 ^ 32 - 1) else d.getF (field b) [c, b / 2]) ∧
      (¬ fires → fired t = fired d ∧ Tab.find t.monLast c = Tab.find d.monLast c) ∧
      (fires → Tab.find t.monLast c = some d.sched.ref ∧
        (bit (d.getF fREC_TRIG_EN_EN []) 28 = false → fired t = fired d) ∧
        (bit (d.getF fREC_TRIG_EN_EN []) 28 = true →
          fired t = fired d ++ [⟨28, c, d.sched.tc⟩] ∨ (fired t = fired d ∧ t.recorder.lost = true)))

/-! ## Images, runs, snapshots -/

/-- LOAD_IMAGE and VERIFY_IMAGE (R326, R327): once SRC lies as it must and its bytes can be read, LOAD_IMAGE of an image that
passes every check of R196 has made its assignment of positions and is in its writing pass; one that fails a check completes with
the status of that check, and nothing has changed but what reading its bytes changes; VERIFY_IMAGE is a long command that will
answer what the checks give.

Long commands end (R320, R321, R327): VERIFY_IMAGE with what its checks gave, changing nothing else; LOAD_IMAGE, when the image
reads as it was checked, with the part LOADED, the image in force and no stream begun; with no progress for
HST_CTL.CMD_TIMEOUT_MS, TIMEOUT, and a LOAD_IMAGE then leaves the part READY with no image. -/
def Obligations.ImagesAreLoaded : Prop :=
  -- Images are checked
  ((∀ h (src length : Word) r b, src.toNat < 2 ^ 48 → src.toNat % 256 = 0 →
    Takes (.loadImage h src length r) 0x10 h (fun d => d.srcSpace h.src src.toNat length.toNat false true ≠ .bad ∧
      (d.readSource h.src src.toNat length.toNat r).1 = some b ∧
      (d.readSource h.src src.toNat length.toNat r).2.checkImage b length.toNat (some (src.toNat, length.toNat)) = .ok)
      fun o d => { (d.readSource h.src src.toNat length.toNat r).2.assign with
        long := some ⟨o, .load src.toNat length.toNat ((b.drop 0x50).take 32)⟩ }) ∧
  (∀ h (src length : Word) r b st, src.toNat < 2 ^ 48 → src.toNat % 256 = 0 → st ≠ Status.ok →
    Answers (.loadImage h src length r) 0x10 h (fun d => d.srcSpace h.src src.toNat length.toNat false true ≠ .bad ∧
      (d.readSource h.src src.toNat length.toNat r).1 = some b ∧
      (d.readSource h.src src.toNat length.toNat r).2.checkImage b length.toNat (some (src.toNat, length.toNat)) = st)
      st (fun _ => 0) fun d => (d.readSource h.src src.toNat length.toNat r).2) ∧
  (∀ h (src length : Word) r b, src.toNat < 2 ^ 48 → src.toNat % 256 = 0 →
    Takes (.verifyImage h src length r) 0x11 h (fun d => d.srcSpace h.src src.toNat length.toNat false true ≠ .bad ∧
      (d.readSource h.src src.toNat length.toNat r).1 = some b)
      fun o d => let d' := (d.readSource h.src src.toNat length.toNat r).2
        { d' with long := some ⟨o, .verify (d'.checkImage b length.toNat none)⟩ })) ∧
  -- Long commands end
  ((∀ r (s : State) o st, s.dev.long = some ⟨o, .verify st⟩ →
    Runs (.longCommandComplete r) s (Dev.complete { s.dev with long := none } o st 0)) ∧
  (∀ r (s : State) o src len digest b, s.dev.long = some ⟨o, .load src len digest⟩ →
    (Dev.readSource { s.dev with long := none } o.hdr.src src len r).1 = some b → Config.sm3 (b.drop 256) = digest →
    (b.drop 0x50).take 32 = digest →
    ∃ d : Dev, Runs (.longCommandComplete r) s (d.complete o .ok 0) ∧ d.run = .loaded ∧ d.long = none ∧
      d.sched.image = some (imageOf b) ∧ d.sched.streams = []) ∧
  (∀ (s : State) o w, s.dev.long = some ⟨o, w⟩ → (∀ src len digest, w ≠ .load src len digest) → (∀ b, w ≠ .restore b) →
    Runs .longCommandTimeout s (Dev.complete { s.dev with long := none } o .timeout 0)) ∧
  (∀ (s : State) o src len digest, s.dev.long = some ⟨o, .load src len digest⟩ →
    ∃ d : Dev, Runs .longCommandTimeout s (d.complete o .timeout 0) ∧ d.run = .ready ∧ d.long = none ∧ d.sched.image = none))

/-- START (R328): when the image may start (its epoch, its engines and power domains, the time state) and sc 0 lies at least 16,384 tc
ahead, the part is RUNNING with every stream at its first word, an empty scoreboard, no hold and no fault, and the reply gives the
base mark: BASE, or with AUTO the first mark that begins at least 16,384 tc after now. Its run counts from sc 0, and SCH_SC shows
the count of the run before until sc 0 begins (R24). Too near a BASE is BAD_PARAM. -/
def Obligations.StartSetsUpTheRun : Prop :=
  (∀ h (base : Word) (f : Byte) im s, f = 0 ∨ f = 1 → s.dev.Accepts 0x12 h → s.dev.seen.sched.image = some im →
    s.dev.seen.check5 im = true → s.dev.seen.canServe im = true → s.dev.seen.domainsOn = true →
    (im.multi = true → s.dev.seen.timeGood = true) → (f = 0 → s.dev.sched.tc + 16384 ≤ base.toNat * 8192) →
    ∃ d : Dev, Runs (.start h base f) s (d.complete (s.dev.owed 0x12 h) .ok
        (if f = 1 then ceilDiv (s.dev.sched.tc + 16384) 8192 else base.toNat)) ∧
      d.run = .running ∧ d.sched.sc = 0 ∧ d.sched.begun = false ∧ d.sched.shown = s.dev.sched.shown ∧ d.sched.board = [] ∧
      d.sched.stop = none ∧ d.sched.hold = {} ∧ d.sched.inFlight = [] ∧ d.sched.streams = im.positions ∧
      d.sched.image = some im ∧
      d.sched.base = (if f = 1 then ceilDiv (s.dev.sched.tc + 16384) 8192 else base.toNat)) ∧
  (∀ h (base : Word) im, Answers (.start h base 0) 0x12 h (fun d => d.sched.image = some im ∧ d.check5 im = true ∧
    d.canServe im = true ∧ d.domainsOn = true ∧ (im.multi = true → d.timeGood = true) ∧
    base.toNat * 8192 < d.sched.tc + 16384) .badParam (fun _ => 0) id)

/-- HALT (R329): in RUNNING with no freeze pending it starts one with cause HALT, 24 sc on, or at sc 0 before that has begun, and its
reply waits for it; with a freeze of a hold pending it joins that one; in HELD it takes effect at once, and every HALT that waits
for a reply has it; in HALTED it completes with OK and changes nothing else.

RESUME (R330) of a part that is HALTED in a hold, not at an anchor: HALT is withdrawn and the command completes with OK; where
the other conditions of R35 hold the release is broadcast, to take effect 24 periods on, and otherwise the part is HELD.

ABORT (R331): in READY or LOADED with no LOAD_IMAGE or RESTORE in progress it completes with OK and changes nothing else; it
cancels a LOAD_IMAGE in progress, which leaves the part READY with no image; in any other state the run is over: no stream, no
scoreboard entry, no pending result, hold or fault, no HALT or SNAPSHOT_AT that waits, SCH_SC as it was, and the part LOADED with
its image, or after a thermal trip READY with none. -/
def Obligations.HaltResumeAbort : Prop :=
  -- Halts freeze
  ((∀ h, Answers (.halt h) 0x13 h (fun d => d.run = .halted) .ok (fun _ => 0) id) ∧
  (∀ h s, s.dev.Accepts 0x13 h → s.dev.run = .running → s.dev.sched.hold.freeze = none → s.dev.sched.hold.held = false →
    Completes (.halt h) s fun d => d.run = .running ∧ d.sched.hold.halt = true ∧ d.sched.hold.cause = 9 ∧
      d.sched.hold.causeSet = 2 ^ 9 ∧
      d.sched.hold.freeze = some (if s.dev.sched.begun = true then s.dev.sched.sc + 24 else 0) ∧
      d.halts = s.dev.halts ++ [s.dev.owed 0x13 h] ∧ d.mem = s.dev.mem) ∧
  (∀ h s f, s.dev.Accepts 0x13 h → s.dev.run = .running → s.dev.sched.hold.freeze = some f → s.dev.sched.hold.held = false →
    s.dev.sched.stop = none → Completes (.halt h) s fun d => d.run = .running ∧ d.sched.hold.halt = true ∧
      d.sched.hold.freeze = some f ∧ d.sched.hold.cause = s.dev.sched.hold.cause ∧ bit d.sched.hold.causeSet 9 = true ∧
      d.halts = s.dev.halts ++ [s.dev.owed 0x13 h] ∧ d.mem = s.dev.mem) ∧
  (∀ h s f, s.dev.Accepts 0x13 h → s.dev.run = .held → s.dev.sched.hold.freeze = some f → s.dev.sched.hold.held = true →
    s.dev.sched.stop = none → Completes (.halt h) s fun d => d.run = .halted ∧ d.sched.hold.halt = true ∧
      d.sched.hold.freeze = some f ∧ d.halts = [] ∧ d.mem = s.dev.mem)) ∧
  -- Resume releases
  (∀ h s f, s.dev.Accepts 0x14 h → s.dev.sched.hold.freeze = some f → s.dev.sched.hold.isHold = true →
    s.dev.sched.stop = none → s.dev.sched.hold.releasing = none → s.dev.sched.curAnchor = none →
    let free := s.dev.seen.relocking = false ∧ s.dev.sched.hold.snap = false ∧
      ∀ e ∈ s.dev.sched.board, e.done = true ∨ f + 31 < e.due
    ∃ d : Dev, Runs (.resume h) s (d.complete (s.dev.owed 0x14 h) .ok 0) ∧ d.sched.hold.halt = false ∧ d.mem = s.dev.mem ∧
      d.sched.hold.freeze = some f ∧ (free → d.sched.hold.releasing = some 24 ∧ d.run = .halted) ∧
      (¬ free → d.sched.hold.releasing = none ∧ d.run = .held)) ∧
  -- Abort ends the run
  ((∀ h, Answers (.abort h) 0x15 h (fun d => (d.run = .ready ∨ d.run = .loaded) ∧ ∀ l, d.long = some l →
    (∀ a b c, l.work ≠ .load a b c) ∧ ∀ b, l.work ≠ .restore b) .ok (fun _ => 0) id) ∧
  (∀ h s o a b c, s.dev.Accepts 0x15 h → s.dev.run = .ready ∨ s.dev.run = .loaded → s.dev.long = some ⟨o, .load a b c⟩ →
    ∃ d : Dev, Runs (.abort h) s ((d.complete o .busy 0).complete (s.dev.owed 0x15 h) .ok 0) ∧ d.run = .ready ∧ d.long = none ∧
      d.sched.image = none) ∧
  (∀ h s, s.dev.Accepts 0x15 h → s.dev.run ≠ .ready → s.dev.run ≠ .loaded →
    ∃ d : Dev, Runs (.abort h) s (d.complete (s.dev.owed 0x15 h) .ok 0) ∧ d.sched.streams = [] ∧
      d.sched.board = [] ∧ d.sched.inFlight = [] ∧ d.sched.stop = none ∧ d.sched.hold.freeze = none ∧ d.halts = [] ∧
      d.snapReq = none ∧ d.sched.shown = s.dev.sched.shown ∧
      if s.dev.tripped = true then d.run = .ready ∧ d.sched.image = none
      else d.run = .loaded ∧ d.sched.image = s.dev.sched.image))

/-- SNAPSHOT_AT (R359) with SC at least 64 ahead of SCH_SC and a destination that R359 allows is pending, and nothing else has
changed, and while another is pending it is BUSY. SNAPSHOT_FREEZE, from SC − 24 on, broadcasts a freeze at SC with cause SNAPSHOT;
SNAPSHOT_WRITE starts the copy at a safe point, and at any other ends the command with BUSY.

SNAPSHOT_WRITE_COMPLETE (R359, R360): the header and, from 0x100 on, the body stand at the destination, the snapshot holds the
part no longer, and the command completes with the bytes written and SC; where a host window fault has ended the copy, or its
window is not valid, the command completes with BUSY. -/
def Obligations.SnapshotsComplete : Prop :=
  -- Snapshots start
  ((∀ h (step sc dst : Word) (sp : Byte), sp.toNat < 8 → dst.toNat < 2 ^ 48 → dst.toNat % 4096 = 0 →
    Takes (.snapshotAt h step sc dst sp) 0x16 h (fun d => d.sched.shown + 64 ≤ sc.toNat ∧
      d.srcSpace h.src dst.toNat (d.snapLen sp.toNat) true false ≠ .bad ∧
      d.destOverlaps dst.toNat (d.snapLen sp.toNat) = false ∧ d.snapReq = none)
      fun o d => { d with snapReq := some ⟨o, step.toNat, sc.toNat, dst.toNat, sp.toNat, false, false, d.snapLen sp.toNat⟩ }) ∧
  (∀ h (step sc dst : Word) (sp : Byte), sp.toNat < 8 → dst.toNat < 2 ^ 48 → dst.toNat % 4096 = 0 →
    Answers (.snapshotAt h step sc dst sp) 0x16 h (fun d => d.sched.shown + 64 ≤ sc.toNat ∧
      d.srcSpace h.src dst.toNat (d.snapLen sp.toNat) true false ≠ .bad ∧
      d.destOverlaps dst.toNat (d.snapLen sp.toNat) = false ∧ d.snapReq ≠ none) .busy (fun _ => 0) id) ∧
  (∀ (s : State) r, s.dev.snapReq = some r → s.dev.snapFreezeDue = true → s.dev.sched.hold.freeze = none →
    Completes .snapshotFreeze s fun d => d.snapReq = some { r with frozen := true } ∧ d.sched.hold.freeze = some r.sc ∧
      d.sched.hold.cause = 10 ∧ d.sched.hold.snap = true ∧ d.mem = s.dev.mem) ∧
  (∀ (s : State) r, s.dev.snapReq = some r → s.dev.snapWriteDue = true → s.dev.sched.hold.freeze = some r.sc →
    s.dev.safePoint = true → Runs .snapshotWrite s { s.dev with snapReq := some { r with writing := true } }) ∧
  (∀ (s : State) r, s.dev.snapReq = some r → s.dev.snapWriteDue = true →
    s.dev.sched.hold.freeze ≠ some r.sc ∨ s.dev.safePoint = false →
    ∃ d : Dev, Runs .snapshotWrite s (d.complete r.owed .busy 0) ∧ d.snapReq = none ∧ d.sched.hold.snap = false ∧ d.mem = s.dev.mem)) ∧
  -- Snapshots are written
  ((∀ (s : State) r body, s.dev.snapReq = some r → r.writing = true → s.dev.sched.stop = none →
    (∃ c o, locate r.dst = .ddr c o) ∨ (∃ w o, locate r.dst = .window w o ∧ s.dev.windowValid w = true ∧
      (s.dev.port (windowPort w)).canWrite = true) →
    s.dev.snapBody r = (body, s.dev) →
    let d := (s.dev.writeDest (r.dst + 0x100) body).writeDest r.dst (s.dev.snapHeader r body)
    Runs (.snapshotWriteComplete true) s (((Dev.withHold { d with snapReq := none, snaps := d.snaps ++
      [(s.dev.snapNo, s.dev.stateBlock)] } fun h => { h with snap := false }).fire 31 0).complete r.owed .ok
        (0x100 + body.length + r.sc * 2 ^ 64))) ∧
  (∀ (ok : Bool) (s : State) r w o, s.dev.snapReq = some r → r.writing = true → locate r.dst = .window w o →
    ok = false ∨ s.dev.windowValid w = false →
    ∃ d : Dev, Runs (.snapshotWriteComplete ok) s (d.complete r.owed .busy 0) ∧ d.snapReq = none ∧
      d.sched.hold.snap = false ∧ d.snaps = s.dev.snaps ∧ d.mem = s.dev.mem))

/-- RESTORE (R361) of a snapshot that passes its checks stops everything and is a long command; at its end, where its state block is
one that this part has written, the part is HALTED at the snapshot's SC with that state block in force. A snapshot that fails a check completes with the status of that check. -/
def Obligations.RestorePutsBack : Prop :=
  (∀ h (src length : Word) r im b s, s.dev.Accepts 0x17 h → src.toNat < 2 ^ 48 → src.toNat % 256 = 0 →
    s.dev.seen.sched.image = some im → s.dev.tripped = false →
    s.dev.seen.srcSpace h.src src.toNat length.toNat false false ≠ .bad →
    (s.dev.seen.readSource h.src src.toNat length.toNat r).1 = some b →
    let st := (s.dev.seen.readSource h.src src.toNat length.toNat r).2.restoreStatus im b length.toNat
    (st = .ok → Completes (.restore h src length r) s fun d =>
      d.run = .loaded ∧ d.long = some ⟨s.dev.owed 0x17 h, .restore b⟩ ∧ d.sched.streams = [] ∧ d.sched.board = [] ∧
      d.sched.inFlight = [] ∧ d.sched.stop = none) ∧
    (st ≠ .ok → Runs (.restore h src length r) s
      ((s.dev.seen.readSource h.src src.toNat length.toNat r).2.complete (s.dev.owed 0x17 h) st 0))) ∧
  (∀ r (s : State) o b n blk, s.dev.long = some ⟨o, .restore b⟩ →
    s.dev.snaps.find? (fun e => stateBytes e.1 = (b.drop 0x100).take (field b 0x48 8)) = some (n, blk) →
    ∃ d : Dev, Runs (.longCommandComplete r) s (d.complete o .ok 0) ∧ d.run = .halted ∧ d.long = none ∧
      d.sched.sc = blk.sc ∧ d.sched.base = blk.base ∧ d.sched.streams = blk.streams ∧ d.mEng = blk.mEng ∧ d.vEng = blk.vEng ∧
      d.sEng = blk.sEng ∧ d.tags = blk.tags ∧ d.sched.hold.freeze = some blk.sc ∧ d.sched.hold.held = true ∧
      d.sched.hold.halt = true)

/-! ## Registers, power domains, fences -/

/-- WRITE_REG (R8, R9, R325): a value that sets a reserved bit, changes a read-only field, or with EXPERT_ENABLE 0 changes an RW
field of Level Expert is BAD_PARAM and changes nothing; a value that the register's rules accept is written as R8 says: RW
fields take it, W1C bits that are 1 in it are cleared. So is an address that names no register BAD_PARAM.

The rows that are a WRITE_REG to one register: EXPERT_ENABLE writes DEV_CTL, and clearing it returns every RW field of Level
Expert to its reset value (R11); RETRAIN starts a controller's retraining in READY or LOADED, with BUSY elsewhere, and
RETRAIN_COMPLETE ends it with the margin trained, MARGIN_LOW set below 8 (R227); CLK_PD_CTL writes the requests, replies, and switches off the domains
whose request is 0 (R300); POWER_DOMAIN_READY shows a requested domain on. -/
def Obligations.RegistersAreWritten : Prop :=
  -- Register writes
  ((∀ h (a v : Word), regAtAddress a.toNat = none → Answers (.writeReg h a v) 0x31 h (fun _ => True) .badParam (fun _ => 0) id) ∧
  (∀ h (a v : Word) r x, regAtAddress a.toNat = some (r, x) → Answers (.writeReg h a v) 0x31 h (fun d =>
      reservedClear r v.toNat = false ∨ (∃ f ∈ r.fields, f.acc = .ro ∧ bits v.toNat f.hi f.lo ≠ bits (d.readReg r x).toNat f.hi f.lo) ∨
      (d.flag fDEV_CTL_EXPERT_ENABLE [] = false ∧ ∃ f ∈ r.fields, f.acc = .rw ∧ f.expert = true ∧
        bits v.toNat f.hi f.lo ≠ bits (d.readReg r x).toNat f.hi f.lo)) .badParam (fun _ => 0) id) ∧
  (∀ h (a v : Word) r x, regAtAddress a.toNat = some (r, x) → r ≠ .rCLK_PD_CTL →
    Answers (.writeReg h a v) 0x31 h (fun d => d.writeOk r x v.toNat = true ∧ d.retrainBusy r v.toNat = false) .ok (fun _ => 0)
      fun d => (d.setWord r x (BitVec.ofNat 64 (writtenWord r (d.word r x).toNat v.toNat))).afterWrite r x (d.word r x).toNat
        v.toNat) ∧
  (∀ (r : RegName) (f : Field) (old v : Nat), f ∈ r.fields →
    (f.acc = .rw → bits (writtenWord r old v) f.hi f.lo = bits v f.hi f.lo) ∧
    (f.acc = .w1c → bits (writtenWord r old v) f.hi f.lo = if bits v f.hi f.lo = 1 then 0 else bits old f.hi f.lo) ∧
    (f.acc = .ro → hasMore r = false → bits (writtenWord r old v) f.hi f.lo = bits old f.hi f.lo))) ∧
  -- Register rows
  ((∀ h, Answers (.expertEnable h 1) 0x31 h (fun _ => True) .ok (fun _ => 0) (fun d => d.setF fDEV_CTL_EXPERT_ENABLE [] 1)) ∧
  (∀ h, Answers (.expertEnable h 0) 0x31 h (fun _ => True) .ok (fun _ => 0)
    (fun d => (d.setF fDEV_CTL_EXPERT_ENABLE [] 0).dropExperts.watchPower)) ∧
  (∀ h (u : Fin 20) (v : Word), let w := putBits v.toNat 5 5 1
    Answers (.retrain h u v) 0x31 h (fun d => d.writeOk .rMEM_CTL [u.val] w = true ∧ (d.run = .ready ∨ d.run = .loaded) ∧
      u.val ∉ d.retraining) .ok (fun _ => 0) (fun d => { d.setWord .rMEM_CTL [u.val]
        (BitVec.ofNat 64 (writtenWord .rMEM_CTL (d.word .rMEM_CTL [u.val]).toNat w)) with retraining := d.retraining ++ [u.val] })) ∧
  (∀ h (u : Fin 20) (v : Word), Answers (.retrain h u v) 0x31 h (fun d => d.writeOk .rMEM_CTL [u.val] (putBits v.toNat 5 5 1) = true ∧
      d.run ≠ .ready ∧ d.run ≠ .loaded) .busy (fun _ => 0) id) ∧
  (∀ (u : Fin 20) (m : Byte) (s : State), u.val ∈ s.dev.retraining → s.dev.flag fMEM_STAT_FAILED [u.val] = false →
    Completes (.retrainComplete u m) s fun d =>
    u.val ∉ d.retraining ∧ d.getF fMEM_CAL_MARGIN [u.val] = m.toNat ∧
    (m.toNat < 8 → d.getF fMEM_STAT_MARGIN_LOW [u.val] = 1)) ∧
  (∀ h (v : Word), Takes (.clkPdCtl h v) 0x31 h (fun d => d.writeOk .rCLK_PD_CTL [] v.toNat = true ∧ d.pdStatus v.toNat = .ok)
    fun o d => ((d.setWord .rCLK_PD_CTL [] v).complete o .ok 0).dropDomains v.toNat) ∧
  (∀ (pd : Fin 40) (s : State), s.dev.up = true → s.dev.domainOn pd.val = false → bit (s.dev.word .rCLK_PD_CTL []).toNat pd.val = true →
    Runs (.powerDomainReady pd) s (s.dev.switchOn pd.val) ∧ (s.dev.switchOn pd.val).domainOn pd.val = true ∧
    ∀ k < 40, k ≠ pd.val → (s.dev.switchOn pd.val).domainOn k = s.dev.domainOn k))

/-- FENCE_ENGINE and UNFENCE_ENGINE (R356, R357): a position that exists and is not fenced is fenced and no other is; one that
serves a logical engine in a run also takes the stopping fault ENGINE_FENCED; fencing a position that is fenced changes
nothing; lifting a fence leaves the position's memories reading zero; a position that does not exist, or a lift where there is
no fence, is BAD_PARAM. -/
def Obligations.FencesComplete : Prop :=
  (∀ h (y k p : Byte) s, s.dev.Accepts 0x22 h → positionExists y.toNat k.toNat p.toNat = true →
    s.dev.seen.cmdFenced y.toNat k.toNat p.toNat = false → s.dev.seen.recFailed y.toNat k.toNat p.toNat = false →
    ∃ d : Dev, Runs (.fenceEngine h y k p) s (d.complete (s.dev.owed 0x22 h) .ok 0) ∧
      (∀ y' k' p', positionExists y' k' p' = true →
        d.cmdFenced y' k' p' = (s.dev.cmdFenced y' k' p' || decide (y' = y.toNat ∧ k' = k.toNat ∧ p' = p.toNat))) ∧
      (s.dev.run.inRun = false → d.sched = s.dev.sched) ∧
      (s.dev.run.inRun = true → s.dev.sched.stop = none → (s.dev.seen.servedBy y.toNat k.toNat p.toNat).isSome = true →
        d.sched.stop = some ⟨s.dev.sched.sc, false⟩ ∧ d.getF fREC_FAULT_CODE [] = 0x0A ∧ d.getF fREC_FAULT_KIND [] = k.toNat ∧
        d.getF fREC_FAULT_POS [] = p.toNat) ∧ SameMemory d s.dev) ∧
  (∀ h (y k p : Byte), positionExists y.toNat k.toNat p.toNat = true → Answers (.fenceEngine h y k p) 0x22 h
    (fun d => d.cmdFenced y.toNat k.toNat p.toNat = true) .ok (fun _ => 0) id) ∧
  (∀ h (y k p : Byte), positionExists y.toNat k.toNat p.toNat = false →
    Answers (.fenceEngine h y k p) 0x22 h (fun _ => True) .badParam (fun _ => 0) id ∧
    Answers (.unfenceEngine h y k p) 0x23 h (fun _ => True) .badParam (fun _ => 0) id) ∧
  (∀ h (y k p : Byte), Answers (.unfenceEngine h y k p) 0x23 h (fun d => d.cmdFenced y.toNat k.toNat p.toNat = false) .badParam
    (fun _ => 0) id) ∧
  (∀ h (y k p : Byte) s, s.dev.Accepts 0x23 h → positionExists y.toNat k.toNat p.toNat = true →
    s.dev.seen.cmdFenced y.toNat k.toNat p.toNat = true →
    ∃ d : Dev, Runs (.unfenceEngine h y k p) s (d.complete (s.dev.owed 0x23 h) .ok 0) ∧
      d.cmdFenced y.toNat k.toNat p.toNat = false ∧
      (∀ sp, (k = 0 ∧ (sp = 1 ∨ sp = 2)) ∨ (k = 1 ∧ (sp = 3 ∨ sp = 4)) ∨ (k = 2 ∧ sp = 5) → ∀ o < spaceSize sp,
        d.byteAt (onchipAddr y.toNat sp p.toNat 0 + o) = 0))

/-! ## Firmware, windows, rings, ports -/

/-- Firmware and key lists (R347 to R349): FW_STAGE_BEGIN of a header that keeps to Table 17-6 and is signed discards what the loft
held and leaves it STAGING with that header; FW_STAGE_DATA of the next piece adds it to the body, COMPLETE at BODY_LEN; either sends
a flash operation on its way, and its command completes with OK when that finishes; FW_STAGE_COMMIT of a
complete body is a long command, and of nothing staged STAGING_EMPTY; a firmware body whose digest verifies is COMMITTED, and
one whose digest does not empties the loft with IMAGE_SIGNATURE. -/
def Obligations.FirmwareStaging : Prop :=
  (∀ h (src : Word) r b key, src.toNat < 2 ^ 48 → src.toNat % 256 = 0 →
    Takes (.fwStageBegin h src r) 0x40 h (fun d => d.committing = false ∧ d.srcSpace h.src src.toNat 512 false true ≠ .bad ∧
      (d.readSource h.src src.toNat 512 r).1 = some b ∧ let d' := (d.readSource h.src src.toNat 512 r).2
      d'.headerOk b = true ∧ d'.signerOf h.src b = .key key ∧ headerSigned b key = true ∧
        (field b 0x0D 1 = 1 → d'.cfg.minSvn ≤ field b 0x10 2))
      fun o d => let d' := (d.readSource h.src src.toNat 512 r).2
        { d' with flash := { d'.flash with loft := .staging, loftHdr := b, loftBody := [],
                                           ops := d'.flash.ops ++ [⟨some o, none⟩] } }) ∧
  (∀ h (src : Word) (len off : BitVec 32) r b, src.toNat < 2 ^ 48 → src.toNat % 256 = 0 → 0 < len.toNat → len.toNat ≤ 0x100000 →
    Takes (.fwStageData h src len off r) 0x41 h (fun d => d.committing = false ∧ d.flash.loft = .staging ∧
      off.toNat = d.flash.loftBody.length ∧ (off.toNat + len.toNat = field d.flash.loftHdr 0x18 8 ∨
        (len.toNat % 256 = 0 ∧ off.toNat + len.toNat < field d.flash.loftHdr 0x18 8)) ∧
      d.srcSpace h.src src.toNat len.toNat false true ≠ .bad ∧ (d.readSource h.src src.toNat len.toNat r).1 = some b)
      fun o d => let d' := (d.readSource h.src src.toNat len.toNat r).2
        { d' with flash := { d'.flash with
            loftBody := d'.flash.loftBody ++ b
            loft := if (d'.flash.loftBody ++ b).length = field d.flash.loftHdr 0x18 8 then .complete else .staging
            ops := d'.flash.ops ++ [⟨some o, none⟩] } }) ∧
  (∀ (s : State) o rest, s.dev.flash.ops = ⟨some o, none⟩ :: rest →
    Runs .flashProgramComplete s (Dev.complete { s.dev with flash := { s.dev.flash with ops := rest } } o .ok 0)) ∧
  (∀ (s : State) o v rest, s.dev.flash.ops = ⟨some o, some v⟩ :: rest → ∃ d : Dev,
    let v' := { v with owner := s.dev.flash.active.owner, images := s.dev.flash.active.images }
    Runs .flashProgramComplete s (d.complete o .ok 0) ∧ d.flash.active = v' ∧ d.flash.ops = rest ∧
    (if s.dev.flash.copyB.gen < s.dev.flash.copyA.gen then d.flash.copyB else d.flash.copyA) =
      ⟨true, s.dev.boot.fmtInUse, max s.dev.flash.copyA.gen s.dev.flash.copyB.gen + 1, v'⟩) ∧
  (∀ h, Takes (.fwStageCommit h) 0x42 h (fun d => d.flash.loft = .complete) fun o d => { d with long := some ⟨o, .commit⟩ }) ∧
  (∀ h, Answers (.fwStageCommit h) 0x42 h (fun d => d.flash.loft = .empty ∨ d.flash.loft = .committed) .stagingEmpty
    (fun _ => 0) id) ∧
  (∀ r (s : State) o, s.dev.long = some ⟨o, .commit⟩ → s.dev.flash.programming = false → field s.dev.flash.loftHdr 0x0D 1 = 1 →
    Runs (.longCommandComplete r) s (if Config.sm3 s.dev.flash.loftBody = (s.dev.flash.loftHdr.drop 0x28).take 32 then
      Dev.complete { s.dev with long := none, flash := { s.dev.flash with loft := .committed } } o .ok 0 else
      Dev.complete { s.dev with long := none, flash := { s.dev.flash with loft := .empty, loftHdr := [], loftBody := [] } } o
        .imageSignature 0))

/-- Host windows (R242, R246): WINDOW_MAP by the owning port of a range that R242 allows makes the window valid with the host
address, length and flags it names; while a descriptor names the window it is BUSY; WINDOW_UNMAP makes it invalid;
TRANSFER_RESUME with the coordinates of the oldest stopped descriptor's chunk lets it go on from there.

Doorbells and ring registers (R312 to R315): SQ_TAIL below SIZE moves the tail of an enabled ring and one of SIZE or more
only sets ERR; RQ_HEAD frees the entries up to it; RING_ENABLE with a SIZE of 4 to 12 and a base on 4 KiB starts a ring that was
off empty, and a bad one only sets ERR; RING_DISABLE stops it; a write to BAR2 is discarded and counted, and a read of 8 bytes of
BAR2 gives a register's value, least significant byte first, or zeros where no register is defined (R6, R10). -/
def Obligations.WindowsAndDoorbellsComplete : Prop :=
  -- Window commands complete
  ((∀ h (w : BitVec 16) (f : Byte) (a len : Word) s, s.dev.Accepts 0x60 h → w.toNat < 1024 → h.src = .host (windowPort w.toNat) →
    f.toNat < 32 → (bit f.toNat 2 = true → (s.dev.port (windowPort w.toNat)).cfg.ats = true ∧
      (s.dev.port (windowPort w.toNat)).cfg.pri = true) →
    (bit f.toNat 3 = true → (s.dev.port (windowPort w.toNat)).cfg.ro = true) →
    (bit f.toNat 4 = true → (s.dev.port (windowPort w.toNat)).cfg.ns = true) →
    a.toNat % 4096 = 0 → len.toNat % 4096 = 0 → 0 < len.toNat → len.toNat ≤ 0x400000000 → s.dev.seen.windowNamed w.toNat = false →
    ∃ d : Dev, Runs (.windowMap h w f a len) s (d.complete (s.dev.owed 0x60 h) .ok 0) ∧ d.windowValid w.toNat = true ∧
      d.windowLen w.toNat = len.toNat ∧ d.word .rXFR_WIN_BASE [w.toNat] = a ∧ d.flag fXFR_WIN_CFG_READ [w.toNat] = bit f.toNat 0 ∧
      d.flag fXFR_WIN_CFG_WRITE [w.toNat] = bit f.toNat 1 ∧ d.flag fXFR_WIN_CFG_AT [w.toNat] = bit f.toNat 2 ∧ ∃ g, d = { s.dev with regs := g }) ∧
  (∀ h (w : BitVec 16) (f : Byte) (a len : Word), w.toNat < 1024 → h.src = .host (windowPort w.toNat) → f.toNat < 4 →
    a.toNat % 4096 = 0 → len.toNat % 4096 = 0 → 0 < len.toNat → len.toNat ≤ 0x400000000 →
    Answers (.windowMap h w f a len) 0x60 h (fun d => d.windowNamed w.toNat = true) .busy (fun _ => 0) id) ∧
  (∀ h (w : BitVec 16), w.toNat < 1024 → h.src = .host (windowPort w.toNat) →
    Answers (.windowUnmap h w) 0x61 h (fun d => d.windowNamed w.toNat = false) .ok (fun _ => 0) (fun d => d.clearWindow w.toNat)) ∧
  (∀ h (e : Byte) c no rest k st, e.toNat < 32 →
    Answers (.transferResume h e c) 0x62 h (fun d => (d.x e.toNat).faults = no :: rest ∧
      (d.x e.toNat).ctxs.find? (fun k => k.no = no) = some k ∧ k.stop = some st ∧
      [c.c0.toNat, c.c1.toNat, c.c2.toNat, c.c3.toNat, c.c4.toNat] = k.desc.coords st.chunk) .ok (fun _ => 0)
      (fun d => d.setX e.toNat { (d.x e.toNat).update no (·.resume st.chunk) with faults := rest }))) ∧
  -- Doorbells complete
  ((∀ p (k : Fin 4) (v : Word) (s : State), ((s.dev.port p).ring k).sqEn = true →
    Completes (.sqTail p k v) s fun d => (d.port p).ring k = if v.toNat < 2 ^ ((s.dev.port p).ring k).sqSize then
      { (s.dev.port p).ring k with sqTail := v.toNat } else { (s.dev.port p).ring k with sqErr := true }) ∧
  (∀ p (k : Fin 4) (v : Word) (s : State), ((s.dev.port p).ring k).rqEn = true → v.toNat < 2 ^ ((s.dev.port p).ring k).rqSize →
    (s.dev.port p).events = [] → (∀ j : Fin 4, ((s.dev.port p).ring j).waiting = []) →
    Completes (.rqHead p k v) s fun d => (d.port p).ring k = { (s.dev.port p).ring k with
      rqHead := v.toNat
      used := ((s.dev.port p).ring k).used - ((s.dev.port p).ring k).freed v.toNat } ∧ d.out = s.dev.out) ∧
  (∀ p (k : Fin 4) (base v : Word) (s : State), ((s.dev.port p).ring k).sqEn = false →
    Completes (.ringEnable p false k base v) s fun d => let r := (d.port p).ring k
      if 4 ≤ v.toNat % 16 ∧ v.toNat % 16 ≤ 12 ∧ base.toNat % 4096 = 0 then
        r.sqEn = true ∧ r.sqErr = false ∧ r.sqSize = v.toNat % 16 ∧ r.sqBase = base.toNat ∧ r.sqHead = 0 ∧ r.sqTail = 0
      else r.sqEn = false ∧ r.sqErr = true) ∧
  (∀ p (k : Fin 4) (base v : Word) (s : State), ((s.dev.port p).ring k).rqEn = false →
    Completes (.ringEnable p true k base v) s fun d => let r := (d.port p).ring k
      if 4 ≤ v.toNat % 16 ∧ v.toNat % 16 ≤ 12 ∧ base.toNat % 4096 = 0 then
        r.rqEn = true ∧ r.rqErr = false ∧ r.rqSize = v.toNat % 16 ∧ r.rqBase = base.toNat ∧ r.rqHead = 0 ∧ r.rqTail = 0 ∧
        r.phase = true ∧ r.used = 0
      else r.rqEn = false ∧ r.rqErr = true) ∧
  (∀ p q (k : Fin 4) (s : State), Completes (.ringDisable p q k) s fun d =>
    if q then ((d.port p).ring k).rqEn = false ∧ ((d.port p).ring k).waiting = [] else ((d.port p).ring k).sqEn = false) ∧
  (∀ p a v (s : State), Runs (.bar2Write p a v) s (s.dev.count .rHST_BAR2_WR_CNT [] 1) ∧
    ((s.dev.count .rHST_BAR2_WR_CNT [] 1).word .rHST_BAR2_WR_CNT []).toNat =
      ((s.dev.word .rHST_BAR2_WR_CNT []).toNat % 2 ^ 48 + 1) % 2 ^ 48) ∧
  (∀ (d : Dev) o r x, o % 8 = 0 → regAt o = some (r, x) → d.bar2Read o 8 = some (leBytes 8 (d.readReg r x).toNat)) ∧
  (∀ (d : Dev) o, o % 8 = 0 → regAt o = none → d.bar2Read o 8 = some (List.replicate 8 0)))

/-- COMMAND_FETCH (R314): where the ring holds an entry and its reply ring a free, unreserved one, the entry is taken, its reply
entry reserved, and the packet runs: an opcode that Table 16-6 does not have completes with BAD_OPCODE, a parameter byte that
R316 requires 0 and is not with BAD_PARAM, and an IDENTIFY as IDENTIFY does. Otherwise nothing is fetched. A sideband message
that keeps to R336 runs the same way. EVENT_DELIVERY writes the oldest waiting event once an unreserved entry is free (R333). -/
def Obligations.PacketsAreFetched : Prop :=
  (∀ p (k : Fin 4) b r (s : State), s.dev.canFetch p k = false → Runs (.commandFetch p k b r) s s.dev) ∧
  (∀ p (k : Fin 4) (b : BitVec 512) r (s : State), s.dev.canFetch p k = true → s.dev.boot.restarting = false →
    let h : Hdr := ⟨.host p, k, BitVec.ofNat 16 (field (leBytes 64 b.toNat) 2 2), bit (nth 0 (leBytes 64 b.toNat) 1) 0⟩
    let d := s.dev.mapRing p k RingPair.fetch
    (cmdRow (b.toNat % 256) = none →
      Runs (.commandFetch p k b r) s (d.seen.complete (d.owed (b.toNat % 256) h) .badOpcode 0)) ∧
    (cmdRow (b.toNat % 256) ≠ none → packetOk (leBytes 64 b.toNat) = false →
      Runs (.commandFetch p k b r) s (d.seen.complete (d.owed (b.toNat % 256) h) .badParam 0)) ∧
    (b.toNat % 256 = 0x01 → packetOk (leBytes 64 b.toNat) = true →
      Runs (.commandFetch p k b r) s (d.seen.complete (d.owed 0x01 h) .ok (d.seen.identity (.host p))))) ∧
  (∀ eid v body r (s : State), s.dev.sidebandTakes v body = true → s.dev.boot.restarting = false →
    let bs := (body.drop 1).map BitVec.toNat
    let h : Hdr := ⟨.sideband, 0, BitVec.ofNat 16 (field bs 2 2), bit (nth 0 bs 1) 0⟩
    let d := { s.dev with sideband := { s.dev.sideband with host := some eid.toNat, outstanding := s.dev.sideband.outstanding + 1 } }
    (cmdRow (nth 0 bs 0) = none →
      Runs (.sidebandCommandMessage eid v body r) s (d.seen.complete (d.owed (nth 0 bs 0) h) .badOpcode 0)) ∧
    (nth 0 bs 0 = 0x01 → packetOk bs = true →
      Runs (.sidebandCommandMessage eid v body r) s (d.seen.complete (d.owed 0x01 h) .ok (d.seen.identity .sideband)))) ∧
  (∀ p m rest (s : State), (s.dev.port p).events = m :: rest → (s.dev.port p).canWrite = true → (s.dev.port p).ring0.rqEn = true →
    (s.dev.port p).ring0.used + (s.dev.port p).ring0.reserved < 2 ^ (s.dev.port p).ring0.rqSize →
    Runs (.eventDelivery p) s ((s.dev.setPort p { s.dev.port p with events := rest, lostMark := false }).writeEntry p 0 true
      { m with lost := (s.dev.port p).lostMark })) ∧
  (∀ p (s : State), (s.dev.port p).events = [] → Runs (.eventDelivery p) s s.dev)

/-- Resets and loss of a port (R335, R379): a Function Level Reset, PERST_N low and loss of link leave the port's rings off, its
events gone, its windows invalid and its claim free, and change nothing of the other port or of memory; PERST_N high and
training bring the link back; a configuration request is answered (R310); unmasking a vector sends what is pending (R334).

Address translation (R244): a completion that grants a page puts the range it covers in the port's cache, and a descriptor that
waits for the page goes on; one that denies it stops that descriptor with cause 2 where the function has no PRI, and with PRI asks
the host for the page, while the allocation has room. A PRG Response of Success lets the descriptor that waits for it try again,
any other stops it with cause 2. An invalidation drops every translation of its range; it completes at once where no outstanding
request uses one, else it waits for just those requests. A page request that has had no response by its expiry stops its
descriptor with cause 1. -/
def Obligations.PortAndTranslationEvents : Prop :=
  -- Port resets complete
  ((∀ i p (s : State), i = .functionLevelReset p ∨ i = .perstN p true ∨ i = .linkLoss p → Completes i s fun d =>
    (∀ k : Fin 4, ((d.port p).ring k).sqEn = false ∧ ((d.port p).ring k).rqEn = false) ∧ (d.port p).events = [] ∧
    (∀ w < 1024, windowPort w = p → d.windowValid w = false) ∧ d.claim ≠ some (.host p) ∧
    (s.dev.claim ≠ some (.host p) → d.claim = s.dev.claim) ∧ (∀ q, q ≠ p → d.port q = s.dev.port q) ∧ d.mem = s.dev.mem ∧
    (i ≠ .functionLevelReset p → (d.port p).link = false)) ∧
  (∀ p (s : State), Runs (.perstN p false) s (s.dev.setPort p { s.dev.port p with perst := false })) ∧
  (∀ p (s : State), (s.dev.port p).perst = false →
    bit (s.dev.word .rCLK_PD_STAT []).toNat (match p with | .ha => 32 | .hb => 33) = true →
    Completes (.pcieLinkTrained p) s fun d => (d.port p).link = true) ∧
  (∀ p (s : State), s.dev.run ≠ .off → (s.dev.port p).link = true → (s.dev.port p).cfgReady = true →
    Runs (.configurationRequest p .readIds) s (s.dev.emit (.config p false (Config.vendorId % 65536 + 0x0D41 * 65536))) ∧
    Runs (.configurationRequest p .readSerial) s (s.dev.emit (.config p false s.dev.cfg.serial)) ∧
    Runs (.configurationRequest p .readClass) s
      (s.dev.emit (.config p false (0x12000000 + if s.dev.cfg.steppingB0 then 0x10 else 0))) ∧
    ∀ e, Completes (.configurationRequest p (.write e)) s fun d => (d.port p).cfg.bme = e.bme ∧ (d.port p).cfg.ats = e.ats ∧
      (d.port p).cfg.pri = e.pri ∧ (d.port p).cfg.mps = min 512 (128 * 2 ^ e.mps.toNat)) ∧
  (∀ p q (s : State), s.dev.run ≠ .off → (s.dev.port p).link = true → (s.dev.port p).cfgReady = false →
    Runs (.configurationRequest p q) s (s.dev.emit (.config p true 0))) ∧
  (∀ p (v : Fin 64) (s : State), (s.dev.port p).cfg.fnMask = false → bit (s.dev.port p).msixPend v.val = true →
    Completes (.msixVectorUnmask p v) s fun d => bit (d.port p).msixMask v.val = false ∧
      bit (d.port p).msixPend v.val = false ∧ .msix p v.val ∈ d.out)) ∧
  -- Translation events complete
  ((∀ p (g : BitVec 52) (o : Fin 20) r w (s : State), (r || w) = true → Completes (.translationCompletion p g o r w) s fun d =>
    ⟨g.toNat / 2 ^ o.val * 2 ^ o.val, 2 ^ o.val, r, w⟩ ∈ (d.ats p).cache ∧ d.mem = s.dev.mem) ∧
  (∀ p (g : BitVec 52) o (s : State) xn no c, s.dev.waiters p (fun w => decide (w = .translating g.toNat)) = [(xn, no)] →
    (s.dev.x xn).ctxs.find? (fun c => c.no = no) = some c → Completes (.translationCompletion p g o true true) s fun d =>
      d.x xn = (s.dev.x xn).update no fun c => { c with wait := none }) ∧
  (∀ p (g : BitVec 52) o (s : State) xn no c, s.dev.waiters p (fun w => decide (w = .translating g.toNat)) = [(xn, no)] →
    (s.dev.x xn).ctxs.find? (fun c => c.no = no) = some c → (s.dev.port p).cfg.pri = false →
    Runs (.translationCompletion p g o false false) s (s.dev.failWaiter 2 (xn, no))) ∧
  (∀ p (g : BitVec 52) o (s : State) xn no c, s.dev.waiters p (fun w => decide (w = .translating g.toNat)) = [(xn, no)] →
    (s.dev.x xn).ctxs.find? (fun c => c.no = no) = some c → (s.dev.port p).cfg.pri = true → s.dev.pageExpiry p g.toNat = none →
    (s.dev.pageRequests p).length < (s.dev.port p).cfg.priAlloc →
    Completes (.translationCompletion p g o false false) s fun d => d.out = .ats p 1 g.toNat :: s.dev.out ∧
      d.x xn = (s.dev.x xn).update no fun c =>
        { c with wait := some (.paging g.toNat (s.dev.sched.ref + s.dev.getF fXFR_CTL_PRI_TIMEOUT [] * 800000 * 9)) }) ∧
  (∀ p (g : BitVec 52) (s : State) xn no,
    s.dev.waiters p (fun w => match w with | .paging g' _ => g' == g.toNat | _ => false) = [(xn, no)] →
    Runs (.prgResponse p g true) s
      ((s.dev.setX xn ((s.dev.x xn).update no fun c => { c with wait := none })).grantSlots p) ∧
    Runs (.prgResponse p g false) s ((s.dev.failWaiter 2 (xn, no)).grantSlots p)) ∧
  (∀ p (g : BitVec 52) (o : Fin 20) (s : State), (s.dev.ats p).invalidating = [] →
    let base := g.toNat / 2 ^ o.val * 2 ^ o.val
    let uses (r : XReq) : Prop := ∃ k, r.page = some (p, k) ∧ base ≤ k ∧ k < base + 2 ^ o.val
    Completes (.invalidateRequest p g o) s fun d =>
      (∀ e ∈ (d.ats p).cache, base + 2 ^ o.val ≤ e.page ∨ e.page + e.span ≤ base) ∧
      ((∀ e ∈ s.dev.xfer, ∀ r ∈ e.2.reqs, ¬ uses r) → (d.ats p).invalidating = [] ∧ d.out = .ats p 2 base :: s.dev.out) ∧
      ((∃ e ∈ s.dev.xfer, ∃ r ∈ e.2.reqs, uses r) → d.out = s.dev.out ∧
        ∃ ids, (d.ats p).invalidating = [(base, ids)] ∧ ∀ id, id ∈ ids ↔ ∃ e ∈ s.dev.xfer, ∃ r ∈ e.2.reqs, r.id = id ∧ uses r)) ∧
  (∀ p (s : State) xn no, s.dev.waiters p (fun w => match w with
      | .paging _ expiry => decide (s.dev.sched.ref ≥ expiry) | _ => false) = [(xn, no)] →
    Runs (.priTimeout p) s ((s.dev.failWaiter 1 (xn, no)).grantSlots p)))

/-! ## Transfer engines -/

/-- Requests (R234, R239, R241, R244, R245): a context that may issue takes its next request, within one chunk, and moves on. For
one that reads a memory tier a flit on VC0 sets out to the tier's controller, but an injection stop's own read is presented there at
once; one that reads a valid host window sends a PCIe request to its port; one that stores on-chip bytes to a memory tier reads
them and sends them, and a flit on VC0 asks the tier's controller. A window whose port is down, or that is not valid, stops the descriptor with its cause; a page that
has no translation is asked for and waited for.

Completions (R220, R235, R239, R243, R245): a controller that serves a read sends what stands there to the request's destination, or
gives it, with the slot it was read from, to the injection buffer; one that serves a write stores the request's bytes there, every other byte of memory staying, and sends its notice. What a host
read returned sets out to its destination; a host write that has completed takes its request away; one that fails on a port
that is up stops the descriptor with cause 5 at its chunk and host address. -/
def Obligations.RequestsIssueAndComplete : Prop :=
  -- Requests issue
  (∀ (x : XEng) (no : Fin 16) (s : State) c, (s.dev.x (xNo x)).ctxs.find? (fun c => c.no = no.val) = some c →
    s.dev.xWorks (xNo x) = true → c.stop = none → c.wait = none → c.desc.kind ≠ 4 → c.chunk < c.limit →
    (s.dev.x (xNo x)).reqs.length < 64 →
    let n := s.dev.pieceLen c.desc c.chunk c.off
    (c.desc.kind = 5 → s.dev.gradComing (c.desc.dst % 32) + n ≤ 0x100000) →
    let src := c.desc.srcOf c.chunk + c.off
    let dst := c.desc.dstOf c.chunk + c.off
    let gone := (s.dev.x (xNo x)).update no.val fun k => if c.off + n ≥ c.desc.srcLen then { k with chunk := k.chunk + 1, off := 0 }
      else { k with off := k.off + n }
    let req (st : XStage) : XReq :=
      { id := s.dev.nextReq, ctx := no.val, chunk := c.chunk, off := c.off, len := n, deadline := c.deadline, stage := st
        sc := s.dev.sched.sc }
    let issued (d : Dev) (r : XReq) : Prop :=
      d.x (xNo x) = { gone with reqs := (s.dev.x (xNo x)).reqs ++ [r] } ∧ d.nextReq = s.dev.nextReq + 1 ∧ d.mem = s.dev.mem
    let asks (d : Dev) (u : Nat) : Prop := ∃ f ∈ d.dyn, f.vc = 0 ∧ f.src = xEnd (xNo x) ∧ f.dst = ctlEnd u ∧
      f.cargo = .request (xNo x) s.dev.nextReq
    (∀ u, tierController src = some u → c.desc.kind ≠ 2 → (c.desc.kind < 2 → tierController dst = none) →
      c.desc.windowOf c.chunk c.off = none →
      Completes (.requestIssue x no .none) s fun d => issued d (req .asked) ∧ asks d u ∧ d.out = s.dev.out) ∧
    ((tierController src).isSome = true → c.desc.kind = 2 →
      Completes (.requestIssue x no .none) s fun d => issued d (req .reading) ∧ d.dyn = s.dev.dyn ∧ d.out = s.dev.out) ∧
    (∀ u, c.desc.kind < 2 → tierController src = none → tierController dst = some u → c.desc.windowOf c.chunk c.off = none →
      s.dev.checkAccess src n = .good → s.dev.Steady (addrRange src n) →
      Completes (.requestIssue x no .none) s fun d => issued d { (req .moving) with asking := true, left := n } ∧ asks d u ∧
        d.Carries (xNo x) s.dev.nextReq (ctlEnd u) (s.dev.peeks src n)) ∧
    (∀ w off wr, c.desc.windowOf c.chunk c.off = some (w, off, wr) →
      let h := ((s.dev.word .rXFR_WIN_BASE [w]).toNat + off) % 2 ^ 64
      (wr = false → c.desc.kind ≠ 2 → (c.desc.kind < 2 → tierController dst = none) → s.dev.windowCheck w off n false = .go none →
        Completes (.requestIssue x no .none) s fun d => issued d { (req .reading) with haddr := h } ∧
          d.out = .pcie (windowPort w) false h n false (s.dev.flag fXFR_WIN_CFG_RO [w]) (s.dev.flag fXFR_WIN_CFG_NS [w])
            (s.dev.port (windowPort w)).cfg.tagBits :: s.dev.out) ∧
      (∀ g, s.dev.windowCheck w off n wr = .translate g → Runs (.requestIssue x no .none) s ((s.dev.setX (xNo x)
        ((s.dev.x (xNo x)).update no.val fun c => { c with wait := some (.translating g) })).emit (.ats (windowPort w) 0 g))) ∧
      (s.dev.portDown (windowPort w) = true → Runs (.requestIssue x no .none) s (s.dev.setX (xNo x)
        ((s.dev.x (xNo x)).update no.val fun k => k.fail 6 w k.chunk 0))) ∧
      (s.dev.portDown (windowPort w) = false → s.dev.windowValid w = false → Runs (.requestIssue x no .none) s (s.dev.setX (xNo x)
        ((s.dev.x (xNo x)).update no.val fun k => k.fail 4 w k.chunk 0))))) ∧
  -- Requests complete
  ((∀ (x : XEng) (i : Fin 64) (lane : BitVec 6) (s : State) r c u, (s.dev.x (xNo x)).reqs[i.val]? = some r →
    (s.dev.x (xNo x)).ctxs.find? (fun c => c.no = r.ctx) = some c →
    let moved (k : XReq) : XReq := if k.id = r.id then { k with stage := .moving, left := k.len } else k
    let src := c.desc.srcOf r.chunk + r.off
    let own := src + s.dev.readAdd c.desc
    let dst := c.desc.dstOf r.chunk + r.off
    s.dev.servedNext u = some ⟨xNo x, c, r⟩ →
    (r.stage = .reading → c.desc.kind ≠ 2 → tierController src = some u → s.dev.checkAccess src r.len = .good → s.dev.Steady (addrRange src r.len) →
      Completes (.requestCompletion x i ⟨false, 0, 0, lane⟩) s fun d =>
        (d.x (xNo x)).reqs = (s.dev.x (xNo x)).reqs.map moved ∧
        (∃ e, d.Carries (xNo x) r.id e (s.dev.peeks src r.len) ∧ (c.desc.kind < 2 → e = placeEnd (xNo x) dst) ∧
          (c.desc.kind = 5 → e = ctlEnd (c.desc.dst % 32))) ∧ d.mem = s.dev.mem) ∧
    (r.stage = .reading → c.desc.kind = 2 → tierController own = some u → s.dev.checkAccess own r.len = .good →
      s.dev.Steady (addrRange own r.len) → r.page = none →
      Completes (.requestCompletion x i ⟨false, 0, 0, lane⟩) s fun d =>
        (d.x (xNo x)).reqs = (s.dev.x (xNo x)).reqs.filter (fun k => k.id ≠ r.id) ∧
        d.inject = s.dev.inject.map (fun b => if c.tiles.any (fun t => t.item = b.item) then
          { b with bytes := b.bytes ++ [(r.chunk, s.dev.readSlot c.desc, r.off, s.dev.peeks own r.len)] } else b) ∧
        d.mem = s.dev.mem) ∧
    (r.stage = .writing → tierController dst = some u → s.dev.checkAccess dst r.whole.length = .good → c.desc.clash = false →
      s.dev.errs = [] → Completes (.requestCompletion x i ⟨false, 0, 0, lane⟩) s fun d =>
        d.mem = (s.dev.pokes dst r.whole).mem ∧
        (d.x (xNo x)).reqs = (s.dev.x (xNo x)).reqs.map (fun k => if k.id = r.id then { k with stage := .noticed } else k) ∧
        ∃ f ∈ d.dyn, f.vc = 0 ∧ f.src = ctlEnd u ∧ f.dst = xEnd (xNo x) ∧ f.cargo = .notice (xNo x) r.id)) ∧
  (∀ (x : XEng) (i : Fin 64) (b : List Byte) (s : State) r c w o wr, (s.dev.x (xNo x)).reqs[i.val]? = some r →
    (s.dev.x (xNo x)).ctxs.find? (fun c => c.no = r.ctx) = some c → c.desc.windowOf r.chunk r.off = some (w, o, wr) → r.stage = (if wr then .writing else .reading) →
    (wr = false → b.length = r.len → Completes (.pcieCompletion x i ⟨true, b⟩) s fun d => d.mem = s.dev.mem ∧
      ∃ e, d.Carries (xNo x) r.id e (b.map BitVec.toNat) ∧
        (c.desc.kind < 2 → e = placeEnd (xNo x) (c.desc.dstOf r.chunk + r.off))) ∧
    (wr = true → r.page = none → Completes (.pcieCompletion x i ⟨true, b⟩) s fun d => d.mem = s.dev.mem ∧
      (d.x (xNo x)).reqs = (s.dev.x (xNo x)).reqs.filter fun k => k.id ≠ r.id) ∧
    (r.page = none → s.dev.portDown (windowPort w) = false → Completes (.pcieCompletion x i ⟨false, b⟩) s fun d =>
      d.mem = s.dev.mem ∧ (d.x (xNo x)).reqs = (s.dev.x (xNo x)).reqs.filter (fun k => k.id ≠ r.id) ∧
      (d.x (xNo x)).ctxs = ((s.dev.x (xNo x)).update r.ctx fun k => k.fail 5 w r.chunk r.haddr).ctxs)))

/-- Descriptors (R234, R235, R237, R245, R248): a freed context takes the head of the waiting list, which runs on in it unless it
is a receive whose bytes have landed; a receive that takes the only context of the part with all its bytes landed completes at
once, and its count of bytes is taken off the tag's. A descriptor whose one tile is done reports it to the scoreboard and frees
its context; one that has stopped reports the tile and keeps the context. Tile t of a stream is issued at the due cycle of tile
t − P with an entry of its own. A stopped descriptor with no request outstanding has its fault recorded and raised to its port.

Fixed-latency descriptors and gradients (R170, R235, R247, R257): each flit of chunk j whose sc has come, of a chunk presented
from issue + j × CPERIOD on, is read and handed to its endpoint's router after the read's latency; once the last chunk is in place
the context is free; a SEND's chunk that has not been packed by its FIXLAT raises a PATH violation and stops the engine. The next
flit of a fixed-latency GRAD descriptor sets out to the unit; bytes of another that have come in order enter the unit's port. -/
def Obligations.TransfersProgress : Prop :=
  -- Descriptors progress
  ((∀ (x : XEng) (s : State) c rest, (s.dev.x (xNo x)).waiting = c :: rest → (s.dev.x (xNo x)).ctxs.length < 16 →
    (c.desc.kind = 4 → ∀ r ∈ (s.dev.takeContext (xNo x)).receives,
      Tab.get 0 s.dev.landed (landedKey r.2.2.desc.dev r.2.2.desc.tag) < r.2.2.desc.len * r.2.2.desc.chunks) →
    Completes (.contextGrant x) s fun d => d.x (xNo x) = { s.dev.x (xNo x) with
      waiting := rest
      ctxs := (s.dev.x (xNo x)).ctxs ++ [{ c with no := freeNo ((s.dev.x (xNo x)).ctxs.map (·.no)) 16 }] }) ∧
  (∀ (x : XEng) (s : State) c, (s.dev.x (xNo x)).waiting = [c] → (s.dev.x (xNo x)).ctxs = [] → c.desc.kind = 4 →
    (∀ k, k ≠ xNo x → (s.dev.x k).ctxs = [] ∧ (s.dev.x k).waiting = []) →
    let key := landedKey c.desc.dev c.desc.tag
    c.desc.len * c.desc.chunks ≤ Tab.get 0 s.dev.landed key →
    Completes (.contextGrant x) s fun d => (d.x (xNo x)).ctxs = [] ∧ (d.x (xNo x)).waiting = [] ∧
      Tab.get 0 d.landed key = Tab.get 0 s.dev.landed key - c.desc.len * c.desc.chunks ∧
      d.sched.reports = s.dev.sched.reports ++ c.tiles.map (·.item)) ∧
  (∀ (x : XEng) (no : Fin 16) (s : State) c t, (s.dev.x (xNo x)).ctxs.find? (fun c => c.no = no.val) = some c →
    c.tiles = [t] → c.desc.tiles = 1 → t.reported = false → s.dev.tileDone (xNo x) c t = true →
    (c.stop = none → (s.dev.x (xNo x)).waiting = [] → Completes (.descriptorCompletion x no) s fun d =>
      d.x (xNo x) = { s.dev.x (xNo x) with ctxs := (s.dev.x (xNo x)).ctxs.filter fun c => c.no ≠ no.val } ∧
      d.sched = (s.dev.report t.item).sched) ∧
    (c.stop ≠ none → Completes (.descriptorCompletion x no) s fun d => d.sched = (s.dev.report t.item).sched ∧
      d.x (xNo x) = (s.dev.x (xNo x)).update no.val fun k => { k with tiles := [{ t with reported := true }] })) ∧
  (∀ (x : XEng) (no : Fin 16) (s : State) c i, (s.dev.x (xNo x)).ctxs.find? (fun c => c.no = no.val) = some c →
    c.desc.kind = 1 → c.full = false → s.dev.xWorks (xNo x) = true → c.tiles.length < c.desc.tiles →
    c.due + (c.tiles.length - c.desc.p) * c.desc.tperiod ≤ s.dev.sched.sc →
    (s.dev.takeEntry (xNo x / 8) (c.due + c.tiles.length * c.desc.tperiod) c.desc.cause none 3 (xNo x % 8) (xUnit (xNo x))).1
      = some i →
    Completes (.streamTileIssue x ⟨no.val, by omega⟩) s fun d => d.x (xNo x) = (s.dev.x (xNo x)).update no.val fun k =>
      { k with tiles := k.tiles ++ [⟨c.tiles.length, i, 0, false⟩], limit := k.limit + k.desc.tileChunks, full := false }) ∧
  (∀ (x : XEng) (no : Fin 16) (s : State) c st, (s.dev.x (xNo x)).ctxs.find? (fun c => c.no = no.val) = some c → c.stop = some st →
    st.recorded = false → (∀ r ∈ (s.dev.x (xNo x)).reqs, r.ctx ≠ no.val) → s.dev.flag fXFR_CTL_FAULT_EVENT [] = false →
    Runs (.hostWindowFault x no) s ((s.dev.setX (xNo x) { (s.dev.x (xNo x)).update no.val (fun c =>
        { c with stop := some { st with recorded := true } }) with faults := (s.dev.x (xNo x)).faults ++ [no.val] }).event
      (.only (.host (windowPort st.window))) 0x03 .transferFault (xNo x + st.cause * 2 ^ 8 + st.window * 2 ^ 16)))) ∧
  -- Fixed transfers progress
  ((∀ (x : XEng) (no : Fin 8) (s : State) c, (s.dev.x (xNo x)).fixed.find? (fun c => c.no = no.val) = some c → c.desc.kind ≠ 5 →
    s.dev.isStopped (xUnit (xNo x)) = false →
    let start := c.issue + c.next * c.desc.cperiod
    let src := c.desc.srcOf c.next
    let now := ((chunkFlits src c.desc.len).drop c.flits).takeWhile fun f => decide (start + f.2.2.2.2.2 ≤ s.dev.sched.sc)
    (c.next < c.desc.chunks → start ≤ s.dev.sched.sc → now ≠ [] → s.dev.xWorks (xNo x) = true → c.desc.clash = false →
      (∀ f ∈ now, s.dev.checkAccess (src + f.1) f.2.1 = .good ∧ s.dev.Steady (addrRange (src + f.1) f.2.1)) →
      Completes (.chunkPresentation x no .none) s fun d => d.mem = s.dev.mem ∧
        (d.x (xNo x)).fixed = (s.dev.x (xNo x)).fixed.map (fun k => if k.no = no.val then
          (if c.flits + now.length ≥ (chunkFlits src c.desc.len).length then { k with next := k.next + 1, flits := 0 }
            else { k with flits := k.flits + now.length }) else k) ∧
        ∀ f ∈ now, ∀ r p, placeOf f.2.2.1.2 = some (r, p) → ∃ t ∈ d.sched.inFlight, s.dev.sched.sc ≤ t.due ∧
          ∃ acc, t.target = .source acc (regionOf f.2.2.1.1 r) (.hand f.2.2.1.1 f.2.2.1.2 r (p + f.2.2.2.1) f.2.2.2.2.1
            (chunkDest (xNo x) c f.1) ((s.dev.peeks (src + f.1) f.2.1).map some))) ∧
    (c.desc.kind = 0 → c.desc.chunks ≤ c.next → c.placed (c.desc.chunks - 1) ≤ s.dev.sched.sc →
      Completes (.chunkPresentation x no .none) s fun d =>
        (d.x (xNo x)).fixed = (s.dev.x (xNo x)).fixed.filter fun c => c.no ≠ no.val) ∧
    (c.desc.kind = 3 → c.desc.chunks ≤ c.next → c.outbox = [] → 0 < c.desc.len → c.sent ≤ c.judged → c.judged < c.desc.chunks →
      c.placed c.judged ≤ s.dev.sched.sc → Runs (.chunkPresentation x no .none) s
        (((s.dev.setX (xNo x) ((s.dev.x (xNo x)).updateFixed no.val fun x => { x with judged := x.judged + 1 })).violation 5
          (xNo x / 8) 3 (endRegion (xEnd (xNo x)))).stopUnit (xUnit (xNo x))))) ∧
  (∀ (x : XEng) (no : Fin 16) (s : State) c, (s.dev.x (xNo x)).fixed.find? (fun c => c.no = no.val) = some c → c.desc.kind = 5 →
    s.dev.xWorks (xNo x) = true → 0 < c.desc.len →
    let u := c.desc.dst % 32
    let a := c.desc.srcOf (c.sent / c.desc.len) + c.sent % c.desc.len
    let n := min (c.desc.len - c.sent % c.desc.len) (256 - a % 256)
    s.dev.gradComing u + n ≤ 0x100000 → s.dev.checkAccess a n = .good → s.dev.Steady (addrRange a n) →
    Completes (.gradDelivery x true no .none) s fun d => d.mem = s.dev.mem ∧
      ∃ f ∈ d.dyn, f.dst = ctlEnd u ∧ f.cargo = .grad (xNo x) no.val u (s.dev.peeks a n)) ∧
  (∀ (x : XEng) (no : Fin 16) (s : State) c o, (s.dev.x (xNo x)).ctxs.find? (fun c => c.no = no.val) = some c → c.desc.kind = 5 →
    let u := c.desc.dst % 32
    let held := Tab.get [] s.dev.gradPort u
    c.outbox.find? (fun o => o.1 * c.desc.len + o.2.1 = (c.tiles.map (·.done)).foldl (· + ·) 0) = some o →
    held.length + o.2.2.length ≤ 0x100000 →
    Completes (.gradDelivery x false no .none) s fun d => Tab.get [] d.gradPort u = held ++ o.2.2 ∧ d.mem = s.dev.mem))

/-- What the transfer rows leave unchanged: the run state, the claim, the loaded image, the streams' places and the registers of
every engine, generation tags, the part's configuration and its flash; and every byte of memory, of all of them but a completion
at a controller, where no error comes up in what they read. -/
def Obligations.TransferFrame : Prop :=
  ∀ (i : Instr) (x : XEng) (s : State), (∃ c e, i = .requestIssue x c e) ∨ (∃ k r, i = .pcieCompletion x k r) ∨
      (∃ k e, i = .requestCompletion x k e) ∨ i = .contextGrant x ∨ (∃ c, i = .descriptorCompletion x c) ∨
      (∃ c e, i = .chunkPresentation x c e) ∨ (∃ p, i = .streamTileIssue x p) ∨ (∃ f c e, i = .gradDelivery x f c e) ∨
      (∃ c, i = .hostWindowFault x c) →
    Completes i s fun d => d.run = s.dev.run ∧ d.claim = s.dev.claim ∧ d.sched.image = s.dev.sched.image ∧
      d.sched.streams = s.dev.sched.streams ∧ d.mEng = s.dev.mEng ∧ d.vEng = s.dev.vEng ∧ d.sEng = s.dev.sEng ∧
      d.tags = s.dev.tags ∧ d.cfg = s.dev.cfg ∧ d.flash = s.dev.flash ∧
      ((∀ k e, i ≠ .requestCompletion x k e) → (∀ c e, i = .requestIssue x c e → e = .none) →
        (∀ c e, i = .chunkPresentation x c e → e = .none) → (∀ f c e, i = .gradDelivery x f c e → e = .none) → d.mem = s.dev.mem)

/-! ## Sideband, attestation, boot -/

/-- The sideband, alive once the boot ROM has started (R336, Table 17-2): ENTDAA gives the target its address; with an address SET_ENDPOINT_ID sets the endpoint, which
once the firmware runs also goes to the settings (log entry 19), GET_ENDPOINT_ID reads it back, and the version and message-type
queries are answered (the bytes of control messages are DSP0236's, log entry 17); of the events that wait the oldest is collected.

SPDM (R345) on a port that is up and configured: GET_VERSION is answered and starts the exchange anew; GET_CAPABILITIES,
NEGOTIATE_ALGORITHMS with SM2 and SM3, GET_DIGESTS, GET_CERTIFICATE, CHALLENGE and GET_MEASUREMENTS, signed or not, of one block, of
all or of none, are answered once the requests before them have been (message codes, formats and that order are DSP0274's, log
entry 17). With no identity every one of them gets ERROR Unspecified (R343); of another version than 1.2, ERROR
VersionMismatch; before GET_VERSION, ERROR UnexpectedRequest. -/
def Obligations.ManagementChannelsComplete : Prop :=
  -- Sideband complete
  ((∀ a (s : State), s.dev.sidebandUp = true → Runs (.entdaa a) s
    (Dev.emit { s.dev with sideband := { s.dev.sideband with addr := some a.toNat } } (.control [a.toNat]))) ∧
  (∀ (s : State), s.dev.sidebandUp = true → s.dev.sideband.addr ≠ none →
    (∀ e, s.dev.boot.fwReady = true → Runs (.setEndpointId e) s (Dev.emit { s.dev with
        sideband := { s.dev.sideband with eid := e.toNat }
        flash := { s.dev.flash with ops := s.dev.flash.ops ++ [⟨none, some { s.dev.flash.newest with eid := e.toNat }⟩] } }
      (.control [0x01, 0, 0, e.toNat, 0]))) ∧
    (∀ e, s.dev.boot.fwReady = false → Runs (.setEndpointId e) s (Dev.emit { s.dev with
      sideband := { s.dev.sideband with eid := e.toNat } } (.control [0x01, 0, 0, e.toNat, 0]))) ∧
    Runs .getEndpointId s (s.dev.emit (.control [0x02, 0, s.dev.sideband.eid, 0, 0])) ∧
    Runs .getMctpVersionSupport s (s.dev.emit (.control [0x04, 0, 1, 0xF1, 0xF3, 0xF1, 0])) ∧
    Runs .getMessageTypeSupport s (s.dev.emit (.control [0x05, 0, 1, 0x7E]))) ∧
  (∀ m rest (s : State), s.dev.sideband.waiting = m :: rest → Runs .sidebandEventRead s
    (Dev.emit { s.dev with sideband := { s.dev.sideband with waiting := rest } } (.mctp m)))) ∧
  -- Attestation complete
  (∀ (p : Port) (s : State), s.dev.run ≠ .off → (s.dev.port p).link = true → (s.dev.port p).cfgReady = true →
    let x := (s.dev.port p).spdm
    let answers (i : Instr) (b : List Nat) : Prop := Completes i s fun d => d.out = .spdm p b :: s.dev.out
    (Completes (.getVersion p) s fun d => d.out = .spdm p [0x10, 0x04, 0, 0, 0, 1, 0x00, 0x12] :: s.dev.out ∧
      (d.port p).spdm = { version := true }) ∧
    (s.dev.flag fSEC_ID_FAIL [] = false → x.version = true →
      (Completes (.getCapabilities p 0x12) s fun d => (d.port p).spdm = { x with caps := true } ∧
        d.out = .spdm p ([0x12, 0x61, 0, 0] ++ ([0, 17, 0, 0] ++ leBytes 4 54)) :: s.dev.out) ∧
      (x.caps = true →
        (∀ a h, bit a.toNat 9 = true → bit h.toNat 6 = true → Completes (.negotiateAlgorithms p 0x12 a h) s fun d =>
          (d.port p).spdm = { x with algs := true } ∧
          d.out = .spdm p ([0x12, 0x63, 0, 0] ++ (leBytes 4 (2 ^ 9) ++ leBytes 4 (2 ^ 6))) :: s.dev.out) ∧
        (x.algs = true →
          answers (.getDigests p 0x12) ([0x12, 0x01, 0, 1] ++ Config.sm3 Config.certificateChain) ∧
          (∀ o n, o.toNat < Config.certificateChain.length →
            let part := (Config.certificateChain.drop o.toNat).take n.toNat
            answers (.getCertificate p 0x12 0 o n) ([0x12, 0x02, 0, 0] ++ (leBytes 2 part.length ++
              leBytes 2 (Config.certificateChain.length - o.toNat - part.length) ++ part))) ∧
          (∀ n, ∃ sig, answers (.challenge p 0x12 0 n) ([0x12, 0x03, 0, 1] ++ (Config.sm3 Config.certificateChain ++
            leBytes 32 n.toNat ++ sig))) ∧
          (∀ (op : Byte) which n, (op.toNat = 0 ∧ which = []) ∨ (op.toNat = 255 ∧ which = [1, 2, 3, 4, 5, 6, 7]) ∨
              (1 ≤ op.toNat ∧ op.toNat ≤ 7 ∧ which = [op.toNat]) →
            let blocks := if op.toNat = 0 then 7 else which.length
            answers (.getMeasurements p 0x12 op false n) ([0x12, 0x60, blocks, 0] ++ which.flatMap s.dev.measurementBlock) ∧
            ∃ sig, answers (.getMeasurements p 0x12 op true n) ([0x12, 0x60, blocks, 0] ++
              (which.flatMap s.dev.measurementBlock ++ sig)))))) ∧
    (∀ i v, (i = .getCapabilities p v ∨ (∃ a h, i = .negotiateAlgorithms p v a h) ∨ i = .getDigests p v ∨
        (∃ k o n, i = .getCertificate p v k o n) ∨ (∃ k n, i = .challenge p v k n) ∨ ∃ op g n, i = .getMeasurements p v op g n) →
      (s.dev.flag fSEC_ID_FAIL [] = true → answers i [0x12, 0x7F, 0x05, 0]) ∧
      (s.dev.flag fSEC_ID_FAIL [] = false → v ≠ 0x12 → answers i [0x12, 0x7F, 0x41, 0]) ∧
      (s.dev.flag fSEC_ID_FAIL [] = false → v = 0x12 → x.version = false → answers i [0x12, 0x7F, 0x04, 0])))

/-- Power and reset (R341, R379, R383): POWER_UP from OFF and RESET_N from any state enter BOOT with stage 0, and POWER_LOSS
enters OFF; each leaves no run and no image, no transfer, no engine state, no claim and no long command, both ports down, memory
that lists no byte (log entry 5), both copies of the settings and the dumps as they were, and a loft that is not COMMITTED empty.
RESET_RELEASE lets the stages begin.

Boot stages (R341 to R343, R346 to R348, Table 17-3), of a boot that has not stopped. At stage 2 a part record that verifies is
read, and one that does not stops the boot with FAIL 1. At stage 3 a COMMITTED loft that does not verify is set EMPTY, with FAIL 3; an
error in its copy stops the boot with FAIL 4; else it becomes the active firmware. At stage 4 active firmware that verifies gives
its version, and any other stops the boot with FAIL 2. Stage 5 sets SEC_ID.VALID, or ID_FAIL with FAIL 5. Stage 6 sets FW_READY,
readies both configuration spaces and takes the settings. Stage 9 leaves on-chip memory reading 0 and the part READY, unless
TEST_MODE keeps it in BOOT. SEC_BOOT.STAGE follows.

The management restart (R337): WATCHDOG_EXPIRY frees the claim and takes FW_READY away, and what the HALTs that wait and the long
command owe is cut short; matrix engines and the streams' places are as they were; with no SNAPSHOT_AT in progress the hold is too,
and with no RESTORE in progress beside that memory and every engine; a LOAD_IMAGE in its writing pass leaves the part READY with
no image, anything else the run state and image as they were. When the controller is back every command cut short completes
with TIMEOUT, and FW_READY is set. -/
def Obligations.BootCompletes : Prop :=
  -- Power and reset
  ((∀ (i : Instr) (s : State), (i = .powerUp ∧ s.dev.run = .off) ∨ i = .resetN ∨ i = .powerLoss → Completes i s fun d =>
    d.run = (if i = .powerLoss then .off else .boot) ∧ d.boot.stage = 0 ∧ d.boot.resetPin = false ∧ d.boot.fwReady = false ∧
    d.mem = [] ∧ d.claim = none ∧ d.long = none ∧ d.sched = {} ∧ d.xfer = [] ∧ d.mEng = [] ∧ d.vEng = [] ∧ d.sEng = [] ∧
    d.sideband = {} ∧ (∀ p, (d.port p).link = false ∧ (d.port p).cfgReady = false ∧ (d.port p).perst = (s.dev.port p).perst) ∧
    d.flash.copyA = s.dev.flash.copyA ∧ d.flash.copyB = s.dev.flash.copyB ∧ d.flash.ops = [] ∧
    d.flash.dumps = s.dev.flash.dumps ∧
    (if s.dev.flash.loft = .committed then d.flash.loft = .committed ∧ d.flash.loftHdr = s.dev.flash.loftHdr ∧
      d.flash.loftBody = s.dev.flash.loftBody else d.flash.loft = .empty)) ∧
  (∀ t (s : State), s.dev.run = .boot → s.dev.boot.resetPin = false →
    Runs (.resetRelease t) s { s.dev with boot := { s.dev.boot with resetPin := true, testMode := t } })) ∧
  -- Boot stages
  (∀ (ok : Bool) present modules margins lanes (s : State), s.dev.run = .boot → s.dev.boot.stopped = false →
    s.dev.boot.resetPin = true →
    let f := s.dev.flash
    let stageIs (P : Dev → Prop) : Prop := Completes (.bootStageComplete ok present modules margins lanes) s P
    let reached (n : Nat) (d : Dev) : Prop := d.run = .boot ∧ d.boot.stopped = false ∧ d.boot.stage = n ∧
      d.getF fSEC_BOOT_STAGE [] = n
    let stops (code : Nat) (d : Dev) : Prop := d.run = .boot ∧ d.boot.stopped = true ∧ d.boot.stage = s.dev.boot.stage ∧
      d.getF fSEC_BOOT_FAIL [] = code
    (s.dev.boot.stage = 1 → s.part.verifies = false → stageIs (stops 1)) ∧
    (s.dev.boot.stage = 1 → s.part.verifies = true → stageIs fun d => reached 2 d ∧ d.cfg = s.part) ∧
    (s.dev.boot.stage = 2 → f.loft = .committed →
      (s.dev.firmwareKey f.loftHdr f.loftBody = none → stageIs fun d => reached 3 d ∧ d.getF fSEC_BOOT_FAIL [] = 3 ∧
        d.flash.loft = .empty ∧ d.flash.activeHdr = f.activeHdr ∧ d.flash.activeBody = f.activeBody) ∧
      (s.dev.firmwareKey f.loftHdr f.loftBody ≠ none → ok = false → stageIs fun d => stops 4 d ∧ d.flash.loft = .committed) ∧
      (s.dev.firmwareKey f.loftHdr f.loftBody ≠ none → ok = true → stageIs fun d => reached 3 d ∧ d.flash.loft = .empty ∧
        d.flash.activeHdr = f.loftHdr ∧ d.flash.activeBody = f.loftBody)) ∧
    (s.dev.boot.stage = 2 → f.loft ≠ .committed → s.dev.firmwareKey f.activeHdr f.activeBody = none → stageIs (stops 2)) ∧
    (∀ k, s.dev.boot.stage = 3 → k < 4 → s.dev.firmwareKey f.activeHdr f.activeBody = some k → stageIs fun d =>
      reached 4 d ∧ d.getF fSEC_FW_VERSION [] = field f.activeHdr 0x0E 2 ∧ d.getF fSEC_FW_KEY [] = k) ∧
    (s.dev.boot.stage = 4 → stageIs fun d => reached 5 d ∧ (ok = true → d.flag fSEC_ID_VALID [] = true) ∧
      (ok = false → d.flag fSEC_ID_VALID [] = false ∧ d.flag fSEC_ID_FAIL [] = true ∧ d.getF fSEC_BOOT_FAIL [] = 5)) ∧
    (s.dev.boot.stage = 5 → stageIs fun d => reached 6 d ∧ d.boot.fwReady = true ∧ (∀ p, (d.port p).cfgReady = true) ∧
      d.sideband.eid = d.flash.active.eid ∧ (f.best = none → d.flash.active = {})) ∧
    (s.dev.boot.stage = 8 → s.dev.boot.testMode = false → stageIs fun d => d.run = .ready ∧ d.boot.stage = 9 ∧
      ∀ y < 4, ∀ o < 0x100000000, d.byteAt (0x200000000000 + y * 0x100000000 + o) = 0) ∧
    (s.dev.boot.stage = 8 → s.dev.boot.testMode = true → Runs (.bootStageComplete ok present modules margins lanes) s s.dev)) ∧
  -- Management restart
  ((∀ (s : State), s.dev.run ≠ .off → s.dev.run ≠ .boot → s.dev.boot.restarting = false → Completes .watchdogExpiry s fun d =>
    d.claim = none ∧ d.long = none ∧ d.halts = [] ∧ d.snapReq = none ∧ d.boot.restarting = true ∧ d.boot.fwReady = false ∧
    (∀ o ∈ s.dev.halts, o ∈ d.cut) ∧ (∀ l, s.dev.long = some l → l.owed ∈ d.cut) ∧ d.mEng = s.dev.mEng ∧
    d.sched.streams = s.dev.sched.streams ∧ (s.dev.snapReq = none → d.sched.hold = s.dev.sched.hold) ∧
    (s.dev.snapReq = none → (∀ o b, s.dev.long ≠ some ⟨o, .restore b⟩) → d.mem = s.dev.mem ∧ d.vEng = s.dev.vEng ∧
      d.sEng = s.dev.sEng) ∧
    ((∀ o a b c, s.dev.long ≠ some ⟨o, .load a b c⟩) → d.run = s.dev.run ∧ d.sched.image = s.dev.sched.image) ∧
    ((∃ o a b c, s.dev.long = some ⟨o, .load a b c⟩) → d.run = .ready ∧ d.sched.image = none)) ∧
  (∀ (s : State), s.dev.boot.restarting = true → Runs .managementRestartComplete s
    (s.dev.cut.foldl (fun d o => d.complete o .timeout 0)
      { s.dev with cut := [], boot := { s.dev.boot with restarting := false, fwReady := true } })))

/-! ## Matrix engines -/

/-- Base registers, loops, shapes and bubbles of an M engine (R77, R78, R84, R178 to R180): MNOP changes nothing; MSETB gives its
register the value and MADDB adds to it modulo 2^32, every other base register of a matrix engine as it was; MLOOP opens a loop of
the next LEN + 1 words, COUNT + 1 passes, in its own stream only; RESHAPE notes the new shape and changes nothing else of the
engine, and 64 sc later the array is in it, bubbles counted from there; a bubble is noted, so that it is taken once. -/
def Obligations.MatrixBaseComplete : Prop :=
  (∀ (e : MEng) (s : State), Runs (.mnop e) s s.dev) ∧
  (∀ (e : MEng) (r : BitVec 3) (v : BitVec 32) (s : State), Completes (.msetb e r v) s fun d => d.mb e r.toNat = v.toNat ∧
    (∀ e' k, (e', k) ≠ (e, r.toNat) → d.mb e' k = s.dev.mb e' k) ∧ d.mem = s.dev.mem ∧ d.regs = s.dev.regs) ∧
  (∀ (e : MEng) (r : BitVec 3) (v : BitVec 32) (s : State), Completes (.maddb e r v) s fun d =>
    d.mb e r.toNat = (s.dev.mb e r.toNat + v.toNat) % 2 ^ 32 ∧
    (∀ e' k, (e', k) ≠ (e, r.toNat) → d.mb e' k = s.dev.mb e' k) ∧ d.mem = s.dev.mem ∧ d.regs = s.dev.regs) ∧
  (∀ (e : MEng) (n : BitVec 16) (l : BitVec 12) (s : State) p, Tab.find s.dev.sched.streams (mNo e) = some p →
    Completes (.mloop e n l) s fun d =>
      Tab.find d.sched.streams (mNo e) = some { p with loops := (p.pc, p.pc + l.toNat, n.toNat + 1) :: p.loops } ∧
      (∀ k, k ≠ mNo e → Tab.find d.sched.streams k = Tab.find s.dev.sched.streams k) ∧ d.mem = s.dev.mem) ∧
  (∀ (e : MEng) (c : BitVec 4) (s : State), Completes (.reshape e c) s fun d =>
    d.m e = { s.dev.m e with reshape := some (s.dev.sched.sc, c.toNat) } ∧ d.mem = s.dev.mem ∧ d.regs = s.dev.regs) ∧
  (∀ (e : MEng) (s : State) st c, (s.dev.m e).reshape = some (st, c) → c < 16 → s.dev.sched.sc ≥ st + 64 →
    s.dev.arrayWorks e = true →
    Completes (.reshapeComplete e) s fun d =>
      d.m e = { s.dev.m e with reshape := none, count0 := st + 64 } ∧ d.shapeCode e = c ∧ d.mem = s.dev.mem) ∧
  (∀ (e : MEng) (s : State), s.dev.bubbleDue e = true → Completes (.bubble e) s fun d =>
    d.m e = { s.dev.m e with bubble := s.dev.sched.sc + 1 } ∧ d.bubbleDue e = false ∧ d.mem = s.dev.mem)

/-- Products (R75, R76, R86, R87, R181): MMA joins the products of its engine, its home address the base register plus its offset, its
first step the lead and the tile read's latency on; a tile read notes the entries of the next step of an edge; a delivery adds one
entry to each manger of the oldest read of its edge that its banks have served, none of which is full; a step with every active
manger filled takes one entry from each, and leaves memory and the other accumulator as they were; a step that finds one empty
is a violation that stops the engine, and changes nothing of any matrix engine. -/
def Obligations.ProductsComplete : Prop :=
  (∀ (e : MEng) (f : MmaF) (s : State), Completes (.mma e f) s fun d =>
    let r : MmaRun := { f := f, home := (s.dev.mb e f.hbase.toNat + f.hoff.toNat) % 2 ^ 23
                        first := s.dev.sched.sc + f.lead.toNat + 17 + s.dev.latency 2 }
    d.m e = { s.dev.m e with mmas := (s.dev.m e).mmas ++ [r] } ∧
    (∀ e', e' ≠ e → d.m e' = s.dev.m e') ∧ d.mem = s.dev.mem ∧ d.regs = s.dev.regs) ∧
  (∀ (e : MEng) (row : Bool) (s : State) i r, s.dev.readDue e row = some (i, r) →
    Completes (.mangerDelivery e row true .none) s fun d =>
      (∃ gs as, (d.m e).reads = (s.dev.m e).reads ++ [⟨row, if row then r.readRow else r.readCol, gs, as⟩]) ∧
      (d.m e).mmas = setNth (s.dev.m e).mmas i (if row then { r with readRow := r.readRow + 1 }
        else { r with readCol := r.readCol + 1 }) ∧
      (d.m e).mangers = (s.dev.m e).mangers ∧ (d.m e).accA = (s.dev.m e).accA ∧ (d.m e).accB = (s.dev.m e).accB ∧
      d.mem = s.dev.mem) ∧
  (∀ (e : MEng) (row : Bool) (s : State) i r x delay, s.dev.feedDue e row = some (i, r, x, delay) →
    (x.groups.map (·.1)).Nodup →
    (∀ g ∈ x.groups, (Tab.get [] (s.dev.m e).mangers (mangerKey row g.1)).length < 32) →
    Completes (.mangerDelivery e row false .none) s fun d =>
      (∀ g ∈ x.groups, Tab.get [] (d.m e).mangers (mangerKey row g.1) =
        Tab.get [] (s.dev.m e).mangers (mangerKey row g.1) ++ [g.2]) ∧
      (d.m e).reads = (s.dev.m e).reads.erase x ∧ (d.m e).accA = (s.dev.m e).accA ∧ (d.m e).accB = (s.dev.m e).accB ∧
      d.mem = s.dev.mem) ∧
  (∀ (e : MEng) (s : State) i r, s.dev.stepDue e = some (i, r) →
    (∀ k ∈ (shapeOf (s.dev.shapeCode e)).mangers, Tab.get [] (s.dev.m e).mangers k ≠ []) →
    Completes (.arrayStep e .none) s fun d =>
      (∀ k ∈ (shapeOf (s.dev.shapeCode e)).mangers,
        Tab.get [] (d.m e).mangers k = (Tab.get [] (s.dev.m e).mangers k).drop 1) ∧
      (if r.f.acc then (d.m e).accA = (s.dev.m e).accA else (d.m e).accB = (s.dev.m e).accB) ∧
      (∀ e', e' ≠ e → d.m e' = s.dev.m e') ∧ d.mem = s.dev.mem) ∧
  (∀ (e : MEng) (s : State) i r, s.dev.stepDue e = some (i, r) → s.dev.run.inRun = true → s.dev.sched.stop = none →
    (∃ k ∈ (shapeOf (s.dev.shapeCode e)).mangers, Tab.get [] (s.dev.m e).mangers k = []) →
    Completes (.arrayStep e .none) s fun d => mNo e ∈ d.sched.stopped ∧ d.sched.stop = some ⟨s.dev.sched.sc, false⟩ ∧
      d.mEng = s.dev.mEng ∧ d.mem = s.dev.mem)

/-- The values of a step (R63, R64, R73, R76): where the formats take a whole K-step a step, and a first step keeps the gaps of
Table 4-5, the accumulator the MMA names becomes what `AccState.step` makes of it, or of zero in the first step without INIT,
from the entries at the front of the mangers; each cell of it is its accumulator value plus its products, exact and rounded
once. -/
def Obligations.StepValues : Prop :=
  (∀ (e : MEng) (s : State) i r, s.dev.stepDue e = some (i, r) → r.rate ≥ 4 →
    (r.taken = 0 → (s.dev.m e).gapKept r (s.dev.shapeCode e) s.dev.sched.sc = true) →
    (∀ k ∈ (shapeOf (s.dev.shapeCode e)).mangers, Tab.get [] (s.dev.m e).mangers k ≠ []) →
    Completes (.arrayStep e .none) s fun d =>
      let code := s.dev.shapeCode e
      let sh := shapeOf code
      let m := s.dev.m e
      let old := if r.taken = 0 ∧ r.f.init = false then ({} : AccState) else if r.f.acc then m.accB else m.accA
      let rs := takeEdge m true (sh.paddocks * sh.rows / 16)
      let cs := takeEdge m false (sh.paddocks * sh.cols / 16)
      (if r.f.acc then (d.m e).accB else (d.m e).accA) = (old.step code s.dev.sched.sc
        (stepVals r.f.fmtRow.toNat r.rate r.f.sclRow rs.1 rs.2) (stepVals r.f.fmtCol.toNat r.rate r.f.sclCol cs.1 cs.2)).1) ∧
  (∀ (a : AccState) (code sc : Nat) (rv cv : List (List Val)) (n : Nat),
    n < (shapeOf code).paddocks * (shapeOf code).rows * (shapeOf code).cols →
    let sh := shapeOf code
    (a.step code sc rv cv).1.vals[n]? = some ((List.zipWith Val.mul (nth [] rv ((sh.place n).1 * sh.rows + (sh.place n).2.1))
      (nth [] cv ((sh.place n).1 * sh.cols + (sh.place n).2.2))).foldl Val.add (val32 (nth 0 a.vals n))).toFp32)

/-- Drains (R85, R89, R95, R151): MDRN joins the drains of its engine with its address formed, and changes no accumulator and no
memory; to a drain-queue slot that is not free it is a violation that stops the engine. A row that is read is the next 256 values
of the accumulator that the drain names, as they stand; a row that passes is taken off those read and counted among those passed.
Neither changes an accumulator or memory. The verdict ends the drain. -/
def Obligations.DrainsComplete : Prop :=
  (∀ (e : MEng) (f : MdrnF) (s : State), (f.dest = 0 →
      bit (s.dev.word .rENG_VSLOT [e.yard.val, e.idx.val / 2]).toNat (8 * (f.aoff.toNat % 4) + 7) = false) →
    Completes (.mdrn e f .none) s fun d =>
      (∃ x, (d.m e).drains = (s.dev.m e).drains ++ [x] ∧ x.f = f ∧ x.issue = s.dev.sched.sc ∧ x.next = 0 ∧ x.read = 0 ∧
        x.addr = if f.dest = 0 then f.aoff.toNat % 4 else (s.dev.mb e f.abase.toNat + f.aoff.toNat) % 2 ^ 27) ∧
      (d.m e).accA = (s.dev.m e).accA ∧ (d.m e).accB = (s.dev.m e).accB ∧ d.mem = s.dev.mem) ∧
  (∀ (e : MEng) (f : MdrnF) (s : State), f.dest = 0 → s.dev.run.inRun = true → s.dev.sched.stop = none →
    bit (s.dev.word .rENG_VSLOT [e.yard.val, e.idx.val / 2]).toNat (8 * (f.aoff.toNat % 4) + 7) = true →
    Completes (.mdrn e f .none) s fun d => mNo e ∈ d.sched.stopped ∧ d.sched.stop = some ⟨s.dev.sched.sc, false⟩ ∧
      d.mEng = s.dev.mEng ∧ d.mem = s.dev.mem) ∧
  (∀ (e : MEng) (s : State) i r, s.dev.rowReadDue e = some (i, r) → Completes (.drainRow e true .none) s fun d =>
    let acc := if r.f.acc then (s.dev.m e).accB else (s.dev.m e).accA
    let row := (List.range 256).map fun k => nth 0 acc.vals (256 * r.read + k)
    let next (a : Option Nat) : DrainRun := { r with read := r.read + 1, rows := r.rows ++ [(s.dev.sched.sc, a, row)] }
    (∃ a, d.m e = { s.dev.m e with drains := setNth (s.dev.m e).drains i (next a) }) ∧ d.mem = s.dev.mem) ∧
  (∀ (e : MEng) (s : State) i r t a row, s.dev.rowDue e = some (i, r, t, a, row) →
    Completes (.drainRow e false .none) s fun d =>
      (∃ x, (d.m e).drains[i]? = some x ∧ x.next = r.next + 1 ∧ x.f = r.f ∧ x.issue = r.issue ∧ x.rows = r.rows.drop 1 ∧
        x.raw = r.raw ++ row) ∧
      (d.m e).accA = (s.dev.m e).accA ∧ (d.m e).accB = (s.dev.m e).accB ∧ d.mem = s.dev.mem) ∧
  (∀ (e : MEng) (s : State) r, s.dev.verdictDue e = some r → Completes (.checksumVerdict e) s fun d =>
    d.m e = { s.dev.m e with drains := (s.dev.m e).drains.erase r } ∧ d.mem = s.dev.mem)

/-- Results (R26, R142, R184): RESULT_DELIVERY takes the first result whose cycle has come out of flight and writes it: a scalar
or address register, or the low or high half of one, the elements of a vector register, the bits of a mask register; s0 and m0
stay; of bytes in memory only those that the result has change, and of one byte only the bits it masks, where its place is not
fenced. -/
def Obligations.ResultsAreWritten : Prop :=
  (∀ s : State, s.dev.resultDue = none → Runs (.resultDelivery .none) s s.dev) ∧
  (∀ (s : State) x, s.dev.resultDue = some x →
    (∀ e r v, x.target = .sreg e r v → r ≠ 0 → Completes (.resultDelivery .none) s fun d => d.sRead e r = v % 2 ^ 64 ∧
      (∀ e' r', (e', r') ≠ (e, r) → d.sRead e' r' = s.dev.sRead e' r') ∧
      d.sched = { s.dev.sched with inFlight := s.dev.sched.inFlight.erase x } ∧ d.mem = s.dev.mem) ∧
    (∀ e r v, x.target = .sregHigh e r v → r ≠ 0 → Completes (.resultDelivery .none) s fun d =>
      d.sRead e r = s.dev.sRead e r % 2 ^ 32 + 2 ^ 32 * (v % 2 ^ 32) ∧ d.mem = s.dev.mem) ∧
    (∀ e v, x.target = .sreg e 0 v ∨ x.target = .sregHigh e 0 v → Runs (.resultDelivery .none) s
      { s.dev with sched := { s.dev.sched with inFlight := s.dev.sched.inFlight.erase x } }) ∧
    (∀ e r v, x.target = .areg e r v → Completes (.resultDelivery .none) s fun d => d.aRead e r = v % 2 ^ 64 ∧
      (∀ e' r', (e', r') ≠ (e, r) → d.aRead e' r' = s.dev.aRead e' r') ∧ d.mem = s.dev.mem) ∧
    (∀ e v b lo vals, x.target = .vreg e v b lo vals → Completes (.resultDelivery .none) s fun d =>
      d.vRead e v = putElems b lo vals (s.dev.vRead e v) ∧
      (∀ e' v', (e', v') ≠ (e, v) → d.vRead e' v' = s.dev.vRead e' v') ∧ d.mem = s.dev.mem) ∧
    (∀ e m lo bs, x.target = .vmask e m lo bs → m ≠ 0 → Completes (.resultDelivery .none) s fun d =>
      d.maskRead e m = putMask lo bs (s.dev.maskRead e m) ∧ d.maskRead e 0 = 2 ^ 2048 - 1 ∧ d.mem = s.dev.mem) ∧
    (∀ l, x.target = .scatter l → Completes (.resultDelivery .none) s fun d =>
      (∀ k, (∀ w ∈ l, s.dev.memKey w.1 ≠ k) → d.byteAt k = s.dev.byteAt k) ∧ d.sEng = s.dev.sEng ∧ d.vEng = s.dev.vEng) ∧
    (∀ a m v, x.target = .scatter [(a, m, v)] → m < 256 → s.dev.errs = [] →
      (∀ y sp e o, locate a = .onchip y sp e o → s.dev.fencedPlace y sp e = false) → Completes (.resultDelivery .none) s fun d =>
      d.peek a = (s.dev.peek a - Nat.land (s.dev.peek a) m) + Nat.land v m))

/-! ## Vector engines -/

/-- Base registers and loops of a V engine (R141, R178, R180): VNOP changes no register of an engine and no memory; VSETB gives its
register the value and VADDB adds to it modulo 2^32, no other changing; VLOOP opens a loop of the next LEN + 1 words,
COUNT + 1 passes, in its own stream only; VREL queues the release of its slots for the end of the sc. -/
def Obligations.VectorBaseComplete : Prop :=
  (∀ (e : VEng) (s : State), Completes (.vnop e) s fun d => SameEngines d s.dev ∧ d.sched = s.dev.sched) ∧
  (∀ (e : VEng) (r : BitVec 3) (v : BitVec 32) (s : State), Completes (.vsetb e r v) s fun d => d.vb e r.toNat = v.toNat ∧
    (∀ e' k, (e', k) ≠ (e, r.toNat) → d.vb e' k = s.dev.vb e' k) ∧ d.mem = s.dev.mem ∧ d.sched = s.dev.sched) ∧
  (∀ (e : VEng) (r : BitVec 3) (v : BitVec 32) (s : State), Completes (.vaddb e r v) s fun d =>
    d.vb e r.toNat = (s.dev.vb e r.toNat + v.toNat) % 2 ^ 32 ∧
    (∀ e' k, (e', k) ≠ (e, r.toNat) → d.vb e' k = s.dev.vb e' k) ∧ d.mem = s.dev.mem ∧ d.sched = s.dev.sched) ∧
  (∀ (e : VEng) (n : BitVec 16) (l : BitVec 12) (s : State) p, Tab.find s.dev.sched.streams (vNo e) = some p →
    Completes (.vloop e n l) s fun d =>
      Tab.find d.sched.streams (vNo e) = some { p with loops := (p.pc, p.pc + l.toNat, n.toNat + 1) :: p.loops } ∧
      (∀ k, k ≠ vNo e → Tab.find d.sched.streams k = Tab.find s.dev.sched.streams k) ∧ SameEngines d s.dev) ∧
  (∀ (e : VEng) (slots : BitVec 4) (s : State), Completes (.vrel e slots) s fun d =>
    s.dev.Queued d 1 [.release e slots.toNat] ∧ SameEngines d s.dev)

/-- Lane instructions at the rate of the arithmetic unit (R142, R143, R146): each queues, for every element that its mask selects,
what its element function makes of the elements of its sources, with the flags those raise, to be written the latency of the
class later; registers and memory are as they were until then.

Mask instructions (R141 to R143): VCMP writes the bits of its mask register whose elements its mask selects, VMAND, VMOR,
VMXOR and VMNOT all 2,048 bits that it selects, and VSEL takes each element from one source or the other by a mask register. -/
def Obligations.LanesAndMasksComplete : Prop :=
  -- Vector lanes complete
  (∀ (e : VEng) (f : LaneF), let ty := f.ty.toNat
    LaneGives (.vadd e f) e f clsAlu (fun _ a b _ => addElem ty a b) ∧
    LaneGives (.vsub e f) e f clsAlu (fun _ a b _ => subElem ty a b) ∧
    LaneGives (.vmul e f) e f clsAlu (fun _ a b _ => mulElem ty a b) ∧
    LaneGives (.vfma e f) e f clsAlu (fun _ a b c => fmaElem ty a b c) ∧
    LaneGives (.vmax e f) e f clsAlu (fun _ a b _ => (maxElem ty a b, 0)) ∧
    LaneGives (.vmin e f) e f clsAlu (fun _ a b _ => (minElem ty a b, 0)) ∧
    LaneGives (.vabs e f) e f clsAlu (fun k a _ _ => (signElem false ty k a, 0)) ∧
    LaneGives (.vneg e f) e f clsAlu (fun k a _ _ => (signElem true ty k a, 0)) ∧
    LaneGives (.vand e f) e f clsAlu (fun _ a b _ => (a &&& b, 0)) ∧
    LaneGives (.vor e f) e f clsAlu (fun _ a b _ => (a ||| b, 0)) ∧
    LaneGives (.vxor e f) e f clsAlu (fun _ a b _ => (a ^^^ b, 0)) ∧
    LaneGives (.vshl e f) e f clsAlu (fun k a b _ => (shiftElem 0 k a b, 0)) ∧
    LaneGives (.vshr e f) e f clsAlu (fun k a b _ => (shiftElem 1 k a b, 0)) ∧
    LaneGives (.vsra e f) e f clsAlu (fun k a b _ => (shiftElem 2 k a b, 0))) ∧
  -- Vector masks complete
  (∀ (e : VEng) (f : LaneF) (s : State),
    let m := s.dev.maskRead e f.mask.toNat
    let a := s.dev.maskRead e (f.va.toNat % 16)
    let b := s.dev.maskRead e (f.vb.toNat % 16)
    let gives (i : Instr) (n : Nat) (g : Nat → Bool) : Prop := Completes i s fun d =>
      s.dev.Queued d (s.dev.latency clsAlu)
        [.vmask e (f.vd.toNat % 16) 0 ((List.range n).map fun k => if bit m k then some (g k) else none)] ∧ SameEngines d s.dev
    gives (.vmand e f) 2048 (fun k => bit a k && bit b k) ∧ gives (.vmor e f) 2048 (fun k => bit a k || bit b k) ∧
    gives (.vmxor e f) 2048 (fun k => bit a k != bit b k) ∧ gives (.vmnot e f) 2048 (fun k => !bit a k) ∧
    gives (.vcmp e f) (tyCount f.ty.toNat)
      (fun k => cmpElem f.sub.toNat f.ty.toNat (nth 0 (s.dev.srcA e f) k) (nth 0 (s.dev.srcB e f) k)) ∧
    Completes (.vsel e f) s fun d => s.dev.Queued d (s.dev.latency clsAlu) (vTargets e f.vd.toNat f.ty.toNat m
      ((List.range (tyCount f.ty.toNat)).map fun k =>
        (if bit (s.dev.maskRead e (f.vc.toNat % 16)) k then nth 0 (s.dev.srcA e f) k else nth 0 (s.dev.srcB e f) k, 0))) ∧
      SameEngines d s.dev)

/-- What the 32-bit integer type computes (R140, R143), and how the comparisons of VCMP relate: sums, differences and
products modulo 2^32; the larger, the smaller, the magnitude and the negation as signed numbers; shifts by less than 32 as words;
of two floating-point elements of which neither is a NaN exactly one of less, equal and greater holds, and of a NaN none.

The exact cases of Table 7-3: powers of two of integers, reciprocals and logarithms of powers of two, reciprocal roots of even
powers, of three NaNs under every function, and single values at zero, at an infinity and of negative numbers, with their flags. -/
def Obligations.ElementsAndSpecialValues : Prop :=
  -- Element values
  ((∀ a b : BitVec 32, addElem 2 a.toNat b.toNat = ((a + b).toNat, 0) ∧ subElem 2 a.toNat b.toNat = ((a - b).toNat, 0) ∧
    mulElem 2 a.toNat b.toNat = ((a * b).toNat, 0) ∧
    maxElem 2 a.toNat b.toNat = (if b.sle a then a else b).toNat ∧ minElem 2 a.toNat b.toNat = (if a.sle b then a else b).toNat) ∧
  (∀ (k : Nat) (a : BitVec 32), a ≠ 0x80000000 →
    signElem false 2 k a.toNat = (if a.msb then -a else a).toNat ∧ signElem true 2 k a.toNat = (-a).toNat) ∧
  (∀ (k : Nat) (a : BitVec 32) (n : Nat), n < 32 → shiftElem 0 k a.toNat n = (a <<< n).toNat ∧
    shiftElem 1 k a.toNat n = (a >>> n).toNat ∧ shiftElem 2 k a.toNat n = (a.sshiftRight n).toNat) ∧
  (∀ a b : BitVec 32, cmpElem 0 2 a.toNat b.toNat = decide (a = b) ∧ cmpElem 1 2 a.toNat b.toNat = decide (a ≠ b) ∧
    cmpElem 2 2 a.toNat b.toNat = a.slt b ∧ cmpElem 3 2 a.toNat b.toNat = a.sle b ∧ cmpElem 4 2 a.toNat b.toNat = false) ∧
  (∀ (ty a b : Nat), ty < 2 → (laneVal ty a).isNan = false → (laneVal ty b).isNan = false →
    cmpElem 4 ty a b = false ∧ cmpElem 1 ty a b = !cmpElem 0 ty a b ∧
    cmpElem 3 ty a b = (cmpElem 2 ty a b || cmpElem 0 ty a b) ∧ cmpElem 2 ty b a = !cmpElem 3 ty a b) ∧
  (∀ (ty a b : Nat), ty < 2 → ((laneVal ty a).isNan = true ∨ (laneVal ty b).isNan = true) → cmpElem 4 ty a b = true ∧
    cmpElem 0 ty a b = false ∧ cmpElem 1 ty a b = true ∧ cmpElem 2 ty a b = false ∧ cmpElem 3 ty a b = false)) ∧
  -- Special values
  ((∀ k : Int, -149 ≤ k → k ≤ 127 → fExp2 (Val.ofInt k).toFp32 = ((Val.fin false 1 k).toFp32, 0)) ∧
  (∀ (k : Int) (n : Bool), -127 ≤ k → k ≤ 127 → fRcp (Val.fin n 1 k).toFp32 = ((Val.fin n 1 (-k)).toFp32, 0)) ∧
  (∀ k : Int, -149 ≤ k → k ≤ 127 → fLog2 (Val.fin false 1 k).toFp32 = ((Val.ofInt k).toFp32, 0)) ∧
  (∀ k : Int, -74 ≤ k → k ≤ 63 → fRsqrt (Val.fin false 1 (2 * k)).toFp32 = ((Val.fin false 1 (-k)).toFp32, 0)) ∧
  (∀ w ∈ [0x7FC00000, 0x7F800001, 0xFFFFFFFF], ∀ f ∈ [fExp2, fRcp, fLog2, fRsqrt, fTanh, fSig, fErf], f w = (0x7FC00000, 0)) ∧
  fRcp 0 = (0x7F800000, 8) ∧ fRcp 0x80000000 = (0xFF800000, 8) ∧ fLog2 0 = (0xFF800000, 8) ∧ fLog2 0xBF800000 = (0x7FC00000, 1) ∧
  fRsqrt 0x80000000 = (0xFF800000, 8) ∧ fRsqrt 0xBF800000 = (0x7FC00000, 1) ∧ fTanh 0x80000000 = (0x80000000, 0) ∧
  fSig 0 = (0x3F000000, 0) ∧ fErf 0xFF800000 = (0xBF800000, 0) ∧ fExp2 0xFF800000 = (0, 0))

/-- Transcendental and soft-maximum instructions (R144, R154): each queues what its function makes of the elements of its sources,
to be written the latency of its class later, with registers and memory as they were until then; VSMX and VSMREC write every
element, and VSMSTAT a second register with the row words. -/
def Obligations.VectorSpecialComplete : Prop :=
  ∀ (e : VEng) (f : LaneF), let ty := f.ty.toNat
    LaneGives (.vexp2 e f) e f clsFull (fun _ a _ _ => special fExp2 ty a) ∧
    LaneGives (.vrcp e f) e f clsFull (fun _ a _ _ => special fRcp ty a) ∧
    LaneGives (.vlog2 e f) e f clsQuarter (fun _ a _ _ => special fLog2 ty a) ∧
    LaneGives (.vrsqrt e f) e f clsQuarter (fun _ a _ _ => special fRsqrt ty a) ∧
    LaneGives (.vtanh e f) e f clsQuarter (fun _ a _ _ => special fTanh ty a) ∧
    LaneGives (.vsig e f) e f clsQuarter (fun _ a _ _ => special fSig ty a) ∧
    LaneGives (.verf e f) e f clsQuarter (fun _ a _ _ => special fErf ty a) ∧
    LaneGives (.vsmnorm e f) e f clsFull (fun _ a b _ => smnorm a b) ∧
    (∀ s : State,
      let m := s.dev.maskRead e f.mask.toNat
      let a (k : Nat) := nth 0 (s.dev.srcA e f) k
      let b (k : Nat) := nth 0 (s.dev.srcB e f) k
      let c (k : Nat) := nth 0 (s.dev.srcC e f) k
      let ext := f.ext1.toNat
      let w (k : Nat) := nth 0 (s.dev.source e 2 1 0 (putBits ext 5 0 (bits ext 5 0 + 1))) k
      (Completes (.vsmx e f) s fun d => s.dev.Queued d (s.dev.latency clsFull) (vTargets e f.vd.toNat 0 (2 ^ 2048 - 1)
        ((List.range 1024).map fun k => smx (bit m k) (a k) (b k) (c k))) ∧ SameEngines d s.dev) ∧
      (Completes (.vsmrec e f) s fun d => s.dev.Queued d (s.dev.latency clsFull) (vTargets e f.vd.toNat 0 (2 ^ 2048 - 1)
        ((List.range 1024).map fun k => smrec (s.dev.nonce + k) (bit m k) (a k) (b k) (w k) (c k))) ∧ SameEngines d s.dev) ∧
      (Completes (.vsmstat e f) s fun d => s.dev.Queued d (s.dev.latency clsQuarter)
        (vTargets e f.vd.toNat 0 m ((List.range 1024).map fun k =>
            ((smstat (s.dev.nonce + k) (a k) (b k)).1, (smstat (s.dev.nonce + k) (a k) (b k)).2.2)) ++
          vTargets e (f.vd.toNat + 1) 2 m ((List.range 1024).map fun k => ((smstat (s.dev.nonce + k) (a k) (b k)).2.1, 0))) ∧
        SameEngines d s.dev))

/-- VCVT and VRED (R55 to R61, R148, R152, R153): every element of the destination that has one in the source is that element
converted; a reduction gives every segment the result of its tree, in FP32 or I32, from element DBASE on, and the mask of
its empty segments. -/
def Obligations.ConvertAndReduceComplete : Prop :=
  (∀ (e : VEng) (f : VcvtF) (s : State), Completes (.vcvt e f) s fun d =>
    s.dev.Queued d (s.dev.latency clsAlu) (vTargets e f.vd.toNat f.dty.toNat (s.dev.maskRead e f.mask.toNat)
      ((List.range (tyCount f.dty.toNat)).map fun n =>
        if n < tyCount f.sty.toNat then
          convert f.dty.toNat f.sty.toNat (s.dev.vMode e f.rm.toNat f.tid.toNat f.draw.toNat f.s.toNat f.i.toNat n) f.sat
            (nth 0 (s.dev.source e f.sty.toNat 0 f.va.toNat 0) n)
        else (Config.freeWord (s.dev.nonce + n) % 65536, 0))) ∧ SameEngines d s.dev) ∧
  (∀ (e : VEng) (f : VredF) (s : State),
    let ty := f.ty.toNat
    let kind := f.kind.toNat
    let w := 2 ^ f.s.toNat
    let m := s.dev.maskRead e f.mask.toNat
    let a := s.dev.source e ty 0 f.va.toNat 0
    let tops := redLevels ty kind f.s.toNat ((List.range (tyCount ty)).map fun i =>
      if bit m i then some ⟨if ty = 1 then widen 1 (nth 0 a i) else nth 0 a i, i % w, 0⟩ else none)
    let count (j : Nat) : Nat := ((List.range w).filter fun i => bit m (j * w + i)).length
    let rs := (List.range (tyCount ty / w)).map fun j => redResult ty kind f.i8 (count j) (nth none tops j)
    let flags := orAll (rs.map (·.2))
    Completes (.vred e f) s fun d => s.dev.Queued d (s.dev.latency clsRed)
      ([.vreg e f.vd.toNat false f.dbase.toNat (rs.map fun r => some r.1),
        .vmask e f.emask.toNat f.dbase.toNat ((List.range (tyCount ty / w)).map fun j => some (nth none tops j).isNone)] ++
       if flags = 0 then [] else [.vstat e flags]) ∧ SameEngines d s.dev)

/-- VLD and VST (R147 to R149, R181, R205, R257): a load gives every element of its register the bytes at its offset, base register
plus signed offset with the low seven bits ignored, as memory stands at issue; a store queues the bytes of the elements its mask
selects to their offsets in vector memory, or in tile memory through the plain or the swizzled view, where they come to the banks
4 sc before, or hands each flit of them that has a byte to the mesh; neither changes memory or a register at issue. -/
def Obligations.VectorMemoryComplete : Prop :=
  (∀ (e : VEng) (f : VldF) (s : State), Completes (.vld e f .none) s fun d => SameEngines d s.dev) ∧
  (∀ (e : VEng) (f : VldF) (s : State),
    let space := if f.space = 0 then 3 else 4
    let n := tyCount f.ty.toNat
    let offs := (List.range (fmtBytes f.fmt.toNat n)).map fun i => s.dev.vOff e f / 128 * 128 + i
    s.dev.Open e.yard.val space e.idx.val offs → s.dev.errs = [] →
    (space = 4 → s.dev.Settled e.yard.val space e.idx.val offs ∧
      ∀ o ∈ offs, s.dev.undrained e.yard.val e.idx.val o = false) →
    Completes (.vld e f .none) s fun d => s.dev.Queued d (s.dev.latency clsMem)
      (vTargets e f.vd.toNat f.ty.toNat (2 ^ 2048 - 1) ((List.range n).map fun i => loadElem f.ty.toNat f.fmt.toNat
        (signed 8 f.scale.toNat) (nth 0 (unpackElems f.fmt.toNat (s.dev.bytesAt e.yard.val space e.idx.val offs) n) i)))) ∧
  (∀ (e : VEng) (f : VstF) (s : State), Completes (.vst e f) s fun d => SameEngines d s.dev) ∧
  (∀ (e : VEng) (f : VstF) (s : State),
    let n := tyCount f.ld.ty.toNat
    let fmt := f.ld.fmt.toNat
    let a := s.dev.source e f.ld.ty.toNat 0 f.ld.vd.toNat 0
    let m := s.dev.maskRead e f.mask.toNat
    let rs := (List.range n).map fun i => storeElem f.ld.ty.toNat fmt (signed 8 f.ld.scale.toNat)
      (s.dev.vMode e f.rm.toNat f.tid.toNat f.draw.toNat f.s.toNat f.i.toNat i) f.sat (nth 0 a i)
    let flags := orAll ((List.range n).map fun i => if bit m i then (nth (0, 0) rs i).2 else 0)
    let put (space k port slack lat : Nat) (place : Nat → Nat × Nat) : Prop :=
      let ws := (List.range n).flatMap fun i =>
        if bit m i then elemWrites fmt (place i).1 (place i).2 (nth (0, 0) rs i).1 else []
      ws ≠ [] → s.dev.Open e.yard.val space k (ws.map (·.1)) → Completes (.vst e f) s fun d =>
        ∃ fl, (fl = [] ↔ flags = 0) ∧ (∀ t ∈ fl, t = (⟨s.dev.sched.sc + s.dev.latency clsMem, s.dev.sched.order,
            .vstat e flags⟩ : Delivery)) ∧
          d.sched.inFlight = s.dev.sched.inFlight ++ fl ++ [⟨s.dev.sched.sc + (lat - slack), s.dev.sched.order + fl.length,
            .offer e.yard.val space k port slack (.scatter (ws.map fun w => (onchipAddr e.yard.val space k w.1, w.2)))⟩]
    let bytes := maskedBytes fmt m (rs.map (·.1))
    (f.ld.space = 0 → put 3 e.idx.val 0 0 (s.dev.latency clsMem) fun i => (s.dev.vOff e f.ld, i)) ∧
    (f.ld.space = 1 ∨ f.ld.space = 2 → put 1 (2 * e.idx.val + (f.ld.space.toNat - 1)) 3 4 (s.dev.latency 1) fun i =>
      if bit (s.dev.vOff e f.ld) 22 then (s.dev.vOff e f.ld - 2 ^ 22, swizzle (32 * f.rows32.toNat)
        (s.dev.vCoords e f.s.toNat f.i.toNat i).1 (s.dev.vCoords e f.s.toNat f.i.toNat i).2)
      else (s.dev.vOff e f.ld, i)) ∧
    (f.ld.space = 3 → ∀ j r p, 256 * j < bytes.length → ((bytes.drop (256 * j)).take 256).all Option.isNone = false →
      placeOf (16 + e.idx.val) = some (r, p) → Completes (.vst e f) s fun d => ∃ t ∈ d.sched.inFlight,
        t.due = s.dev.sched.sc + (3 + j / 4) ∧ t.target = .hand e.yard.val (16 + e.idx.val) r (p + j % 2) (j / 2 % 2)
          (.mem (some e.yard.val) 0 0xFF (s.dev.vOff e f.ld + 256 * j)) ((bytes.drop (256 * j)).take 256)))

/-- VCHOL and VTRSM (R155 to R157): the blocks are read from vector memory at issue, and after the time of R157 every block with its
reciprocal diagonal, or every block of solved right-hand sides, is written, with the mask of damped blocks; the first column
of a factor is its first column times the reciprocal root of its pivot, and nothing stands above its diagonal. -/
def Obligations.FactorisationsComplete : Prop :=
  (∀ (e : VEng) (f : BlockF) md delta (s : State), Completes (.vchol e f md delta .none) s fun d => SameEngines d s.dev) ∧
  (∀ (e : VEng) (f : BlockF) (t : Bool) k yb y ys (s : State), Completes (.vtrsm e f t k yb y ys .none) s fun d => SameEngines d s.dev) ∧
  (∀ (e : VEng) (f : BlockF) (md : BitVec 4) (delta : BitVec 32) (s : State),
    let n := f.n.toNat + 1
    let b := f.b.toNat + 1
    let cs := (List.range b).map fun i => cholBlock n delta.toNat (s.dev.blockAt e (s.dev.blockBase e f i) n n)
    let ws := (List.range b).flatMap fun i =>
      blockWrites (s.dev.blockBase e f i) (nth { a := [] } cs i : CholState).a ++
        blockWrites (s.dev.diagBase e f i) [(nth { a := [] } cs i : CholState).d]
    let flags := Nat.lor (orAll (cs.map (·.flags))) (if (cs.map (·.damped)).foldl (· + ·) 0 > 0 then 32 else 0)
    s.dev.errs = [] → (∀ i < b, s.dev.Open e.yard.val 3 e.idx.val (blockOffs (s.dev.blockBase e f i) n n)) →
    s.dev.Open e.yard.val 3 e.idx.val (ws.map (·.1)) →
    Completes (.vchol e f md delta .none) s fun d => s.dev.Queued d (s.dev.cholTime n b)
      ([.offer e.yard.val 3 e.idx.val 0 0 (.scatter (ws.map fun w => (onchipAddr e.yard.val 3 e.idx.val w.1, w.2))),
        .vmask e md.toNat 0 (cs.map fun c => some (decide (c.damped > 0)))] ++ if flags = 0 then [] else [.vstat e flags])) ∧
  (∀ (e : VEng) (f : BlockF) (t : Bool) (k : BitVec 7) (yb : BitVec 3) y ys (s : State),
    let n := f.n.toNat + 1
    let b := f.b.toNat + 1
    let kk := k.toNat + 1
    let yAt (i : Nat) : Nat := (s.dev.vb e yb.toNat + 512 * y.toNat + i * (512 * ys.toNat)) % 2 ^ 32
    let xs := (List.range b).map fun i => trsmBlock n kk t (s.dev.blockAt e (s.dev.blockBase e f i) n n)
      (nth [] (s.dev.blockAt e (s.dev.diagBase e f i) 1 n) 0) (s.dev.blockAt e (yAt i) n kk)
    let ws := (List.range b).flatMap fun i => blockWrites (yAt i) (nth ([], 0) xs i).1
    let flags := xs.foldl (fun a x => Nat.lor a x.2) 0
    s.dev.errs = [] → (∀ i < b, s.dev.Open e.yard.val 3 e.idx.val (blockOffs (s.dev.blockBase e f i) n n) ∧
      s.dev.Open e.yard.val 3 e.idx.val (blockOffs (s.dev.diagBase e f i) 1 n) ∧
      s.dev.Open e.yard.val 3 e.idx.val (blockOffs (yAt i) n kk)) →
    s.dev.Open e.yard.val 3 e.idx.val (ws.map (·.1)) →
    Completes (.vtrsm e f t k yb y ys .none) s fun d => s.dev.Queued d (s.dev.trsmTime n b)
      ([.offer e.yard.val 3 e.idx.val 0 0 (.scatter (ws.map fun w => (onchipAddr e.yard.val 3 e.idx.val w.1, w.2)))] ++
        if flags = 0 then [] else [.vstat e flags])) ∧
  (∀ (n delta : Nat) (a : Block) (i k : Nat), i < n → k < n → i < k → (cholBlock n delta a).a.at i k = 0) ∧
  (∀ (n delta : Nat) (a : Block) (i : Nat), 0 < i → i < n → geF (a.at 0 0) delta = true →
    (cholBlock n delta a).a.at i 0 = (mulF (a.at i 0) (fRsqrt (a.at 0 0)).1).1)

/-! ## Scalar engines -/

/-- Scalar integer instructions (R184, Table 9-4): on 64-bit registers, modulo 2^64, shift amounts modulo 64, the immediate in
place of RB sign-extended. -/
def Obligations.ScalarIntegersComplete : Prop :=
  (∀ (e : SEng) (f : IntF), let imm := (f.val.signExtend 64).toNat
    let gives (i : Instr) (g : BitVec 64 → BitVec 64 → BitVec 64) : Prop := ScalarGives i e f clsSAlu imm
      fun a b _ => (g (BitVec.ofNat 64 a) (BitVec.ofNat 64 b)).toNat
    gives (.sadd e f) (· + ·) ∧ gives (.ssub e f) (· - ·) ∧ gives (.smul e f) (· * ·) ∧ gives (.sand e f) (· &&& ·) ∧
    gives (.sor e f) (· ||| ·) ∧ gives (.sxor e f) (· ^^^ ·) ∧ gives (.sshl e f) (fun a b => a <<< (b.toNat % 64)) ∧
    ScalarGives (.sshr e f) e f clsSAlu imm (fun a b _ => a / 2 ^ (b % 64) % 2 ^ 64) ∧
    gives (.ssra e f) (fun a b => a.sshiftRight (b.toNat % 64)) ∧
    ScalarGives (.scmp e f) e f clsSAlu imm (fun a b _ => b2n (scmp (f.rc.toNat % 8) a b)) ∧
    ScalarGives (.ssel e f) e f clsSAlu imm (fun a b c => (if c ≠ 0 then a else b) % 2 ^ 64)) ∧
  (∀ a b : BitVec 64, scmp 0 a.toNat b.toNat = decide (a = b) ∧ scmp 1 a.toNat b.toNat = decide (a ≠ b) ∧
    scmp 2 a.toNat b.toNat = a.slt b ∧ scmp 3 a.toNat b.toNat = a.sle b ∧ scmp 4 a.toNat b.toNat = a.ult b ∧
    scmp 5 a.toNat b.toNat = a.ule b)

/-- Moves and loops of an S engine (R178, R180, R184): SLI sign-extends its immediate, SLIH sets the high half of a register;
SADDA adds its signed immediate to an address register, SMOVA copies a scalar register to one; SNOP changes nothing; SLOOP opens
a loop of the next LEN + 1 words, COUNT + 1 passes.

Scalar floating point (R184): FP32 in the low halves, an immediate its FP32 value, one rounding; reciprocals at the accuracy and
latency of the vector functions; conversions between FP32 and 64-bit integers clamp, and a NaN gives 0. -/
def Obligations.ScalarMovesAndFloatsComplete : Prop :=
  -- Scalar moves complete
  (∀ (e : SEng) (s : State),
    let after (i : Instr) (t : Target) : Prop := Completes i s fun d => s.dev.Queued d (s.dev.latency clsSAlu) [t] ∧
      SameEngines d s.dev ∧ d.regs = s.dev.regs
    Runs (.snop e) s s.dev ∧
    (∀ rd (imm : BitVec 32), after (.sli e rd imm) (.sreg e rd.toNat (imm.signExtend 64).toNat)) ∧
    (∀ rd (imm : BitVec 32), after (.slih e rd imm) (.sregHigh e rd.toNat imm.toNat)) ∧
    (∀ ad as (imm : BitVec 32), after (.sadda e ad as imm)
      (.areg e ad.toNat (BitVec.ofNat 64 (s.dev.aRead e as.toNat) + imm.signExtend 64).toNat)) ∧
    (∀ ad ra, after (.smova e ad ra) (.areg e ad.toNat (s.dev.sRead e ra.toNat))) ∧
    (∀ (n : BitVec 16) (l : BitVec 12) p, Tab.find s.dev.sched.streams (sNo e) = some p → Completes (.sloop e n l) s fun d =>
      Tab.find d.sched.streams (sNo e) = some { p with loops := (p.pc, p.pc + l.toNat, n.toNat + 1) :: p.loops } ∧
      (∀ k, k ≠ sNo e → Tab.find d.sched.streams k = Tab.find s.dev.sched.streams k) ∧ SameEngines d s.dev)) ∧
  -- Scalar floats complete
  ((∀ (e : SEng) (f : IntF), let imm := (Val.ofInt f.val.toInt).toFp32
    let low (n : Nat) : Nat := n % 2 ^ 32
    ScalarGives (.sfadd e f) e f clsSAlu imm (fun a b _ => ((val32 (low a)).add (val32 (low b))).toFp32) ∧
    ScalarGives (.sfmul e f) e f clsSAlu imm (fun a b _ => ((val32 (low a)).mul (val32 (low b))).toFp32) ∧
    ScalarGives (.sffma e f) e f clsSAlu imm
      (fun a b c => (((val32 (low a)).mul (val32 (low b))).add (val32 (low c))).toFp32) ∧
    ScalarGives (.sfrcp e f) e f clsQuarter 0 (fun a _ _ => (fRcp (low a)).1) ∧
    ScalarGives (.sfrsqrt e f) e f clsQuarter 0 (fun a _ _ => (fRsqrt (low a)).1) ∧
    (∀ s : State, Completes (.sfcvt e f) s fun d =>
      let code := f.rc.toNat / 2 % 4
      let r := if f.imm then (f.val.signExtend 64).toNat else s.dev.sRead e f.rb.toNat
      let mode := if code = 1 then Mode.rtz
        else if code = 2 then Mode.sr (srNumber s.dev.seed 0 (r % 2 ^ 32) (r / 2 ^ 32 % 2 ^ 32) 0) else Mode.rne
      let a := s.dev.sRead e f.ra.toNat
      s.dev.Queued d (s.dev.latency clsSAlu) [.sreg e f.rd.toNat (if f.rc.toNat % 2 = 0 then fpToInt mode (a % 2 ^ 32)
        else intToFp mode a)] ∧ SameEngines d s.dev)) ∧
  (∀ (m : Mode) (w : Nat), val32 w = .nan → fpToInt m w = 0) ∧
  (∀ m : Mode, fpToInt m 0x7F800000 = 2 ^ 63 - 1 ∧ fpToInt m 0xFF800000 = 2 ^ 63) ∧
  (∀ i : Int, -2 ^ 24 ≤ i → i ≤ 2 ^ 24 → ∀ m : Mode, fpToInt m (intToFp m (wrap 64 i)) = wrap 64 i))

/-- Scalar memory (R185, R186): SLD reads 1, 2, 4 or 8 bytes at its address register plus its signed offset as they stand at issue,
SGN extending the sign; SST queues the bytes of its register, to be offered to the memory's banks the latency later; neither
changes memory or a register at issue. -/
def Obligations.ScalarMemoryComplete : Prop :=
  ∀ (e : SEng) (f : MemF) (s : State),
    let n := 2 ^ f.size.toNat
    let at0 := (BitVec.ofNat 64 (s.dev.aRead e f.areg.toNat) + f.off.signExtend 64).toNat
    let offs := (List.range n).map fun i => at0 + i
    let v := leNat (s.dev.bytesAt e.yard.val 5 e.idx.val offs)
    s.dev.Open e.yard.val 5 e.idx.val offs → s.dev.errs = [] →
    (Completes (.sld e f .none) s fun d => s.dev.Queued d (s.dev.latency clsSMem)
      [.sreg e f.r.toNat (if f.sgn then wrap 64 (signed (8 * n) v) else v)] ∧ SameEngines d s.dev ∧ d.regs = s.dev.regs) ∧
    (Completes (.sst e f) s fun d => s.dev.Queued d (s.dev.latency clsSMem) [.offer e.yard.val 5 e.idx.val 0 0
      (.scatter ((List.range n).map fun i => (onchipAddr e.yard.val 5 e.idx.val (at0 + i), 255, s.dev.sRead e f.r.toNat / 256 ^ i % 256)))] ∧
      SameEngines d s.dev ∧ d.regs = s.dev.regs)

/-- Descriptors (R186, R231, R233, R234): XSTART reads 128 bytes at its aligned offset at issue; a variable-latency COPY with
every field in its stated range that the checks pass takes a context that is free with one scoreboard entry, due DUE sc on; a
fixed-latency one joins the fixed descriptors; memory and the registers of the engines stay as they are. -/
def Obligations.DescriptorsStart : Prop :=
  ∀ (e : SEng) (f : XstartF) (s : State),
    let off := (s.dev.aRead e f.areg.toNat + 64 * f.off.toNat) % 2 ^ 64
    let k := 2 * e.idx.val + b2n f.xsel
    let xn := 8 * e.yard.val + k
    let offs := (List.range 128).map fun i => off + i
    let b := s.dev.bytesAt e.yard.val 5 e.idx.val offs
    let c := parseDesc b
    let c' : Desc := { c with clash := s.dev.clashes c }
    off % 64 = 0 → off + 128 ≤ spaceSize 5 → s.dev.errs = [] → s.dev.Open e.yard.val 5 e.idx.val offs → b.getD 0 0 = 0 →
    c.inRange = true → s.dev.descFault e.yard.val k c = none →
    (c.cause = 0 → (s.dev.x xn).fixed.length < 8 → Completes (.xstart e f .none) s fun d =>
      (∃ no, d.x xn = { s.dev.x xn with fixed := (s.dev.x xn).fixed ++ [{ no := no, desc := c', issue := s.dev.sched.sc }] } ∧
        ∀ g ∈ (s.dev.x xn).fixed, g.no ≠ no) ∧ SameEngines d s.dev) ∧
    (c.cause ≠ 0 → s.dev.sched.occupied e.yard.val < 1024 → (s.dev.x xn).ctxs.length < 16 → (s.dev.x xn).waiting = [] →
      Completes (.xstart e f .none) s fun d =>
        (∃ x, d.x xn = { s.dev.x xn with ctxs := (s.dev.x xn).ctxs ++ [x] } ∧ x.desc = c' ∧ x.issue = s.dev.sched.sc ∧
          x.due = s.dev.sched.sc + f.due.toNat ∧ x.tiles = [⟨0, s.dev.sched.nextItem, 0, false⟩] ∧
          ∀ g ∈ (s.dev.x xn).ctxs, g.no ≠ x.no) ∧
        d.sched.board = s.dev.sched.board ++ [⟨e.yard.val, s.dev.sched.nextItem, s.dev.sched.sc + f.due.toNat, c.cause, false, none,
          false⟩] ∧ SameEngines d s.dev)

/-- Update commands, trackers and origins (R28, R167, R187, R188): UUPD, USETC and URLS read their registers, take a scoreboard
entry of the yard and set out to the unit in a flit on VC1; TRKCLR and SORG are queued at the scalar latency, and TRKRD queues the word
as it stands at issue. -/
def Obligations.ScalarUnitsComplete : Prop :=
  ∀ (e : SEng) (s : State),
    let r (g : BitVec 6) (k : Nat) : Nat := s.dev.sRead e ((g.toNat + k) % 64)
    let sends (i : Instr) (unit due : Nat) (c : UpdCmd) : Prop := s.dev.sched.occupied e.yard.val < 1024 →
      s.dev.endFenced e.yard.val (24 + e.idx.val) = false → Completes i s fun d =>
      (∃ x, d.dyn = s.dev.dyn ++ [x] ∧ x.vc = 1 ∧ x.src = (e.yard.val, 24 + e.idx.val) ∧ x.dst = ctlEnd unit ∧
        x.cargo = .command unit (sKey e) { c with item := s.dev.sched.nextItem }) ∧
      d.sched.board = s.dev.sched.board ++ [⟨e.yard.val, s.dev.sched.nextItem, s.dev.sched.sc + due % 2 ^ 24, 5, false, none, false⟩] ∧
      SameEngines d s.dev
    (∀ f : UupdF, sends (.uupd e f) f.unit.toNat (r f.sreg 3)
      { opc := if f.sparse then 2 else 1, flags := f.flags.toNat, group := f.group.toNat, shard := f.shard.toNat,
        gen := r f.sreg 0 % 65536, tid := r f.sreg 0 / 65536 % 65536, draw := r f.sreg 0 / 2 ^ 32,
        gaddr := r f.sreg 1 % 2 ^ 48, ioff := r f.sreg 2 % 2 ^ 32, nidx := r f.sreg 2 / 2 ^ 32 }) ∧
    (∀ f : UsetcF, sends (.usetc e f) f.unit.toNat (r f.sreg 2)
      { opc := 3, group := f.group.toNat, gcount := f.gcount.toNat, cmask := f.cmask.toNat,
        vals := [r f.sreg 0 % 2 ^ 32, r f.sreg 0 / 2 ^ 32, r f.sreg 1 % 2 ^ 32, r f.sreg 1 / 2 ^ 32] }) ∧
    (∀ (unit : BitVec 5) (region : BitVec 16) sreg, sends (.urls e unit region sreg) unit.toNat (r sreg 1)
      { opc := 4, region := region.toNat, gen := r sreg 0 % 65536 }) ∧
    (∀ entry base, Completes (.trkclr e entry base) s fun d => s.dev.Queued d (s.dev.latency clsSAlu)
      [.tracker e.yard.val entry.toNat base.toNat] ∧ SameEngines d s.dev ∧ d.regs = s.dev.regs) ∧
    (∀ rd (entry : Byte) (w : BitVec 5),
      let v := if w = 0 then s.dev.word .rTRK_CFG [e.yard.val, entry.toNat]
        else if w = 1 then s.dev.word .rTRK_AMAX [e.yard.val, entry.toNat]
        else s.dev.word .rTRK_BIN [e.yard.val, entry.toNat, (w.toNat - 2) % 16]
      Completes (.trkrd e rd entry w) s fun d => s.dev.Queued d (s.dev.latency clsSMem) [.sreg e rd.toNat v.toNat] ∧
        SameEngines d s.dev ∧ d.regs = s.dev.regs) ∧
    (∀ (m : BitVec 4) (walk : Bool) (entry : Byte) sreg,
      (if walk then entry.toNat < (s.dev.walks ⟨e.yard, ⟨m.toNat, m.isLt⟩⟩).length
        else 1 ≤ entry.toNat ∧ entry.toNat ≤ s.dev.getF fENG_MSIDE_COUNT [e.yard.val, m.toNat]) →
      Completes (.sorg e m walk entry sreg) s fun d => s.dev.Queued d (s.dev.latency clsSAlu)
        [.origin ⟨e.yard, ⟨m.toNat, m.isLt⟩⟩ walk entry.toNat (r sreg 0 % 2 ^ 32) (r sreg 0 / 2 ^ 32 % 2 ^ 32)] ∧
        SameEngines d s.dev ∧ d.regs = s.dev.regs)

/-! ## Runs: holds, anchors, faults -/

/-- The hold controller (R31 to R37, R329, R332): an entry that is late 32 sc before its due cycle freezes the part 24 sc on with its
cause; a completion is recorded; a freeze takes effect as HALTED, HELD or FAULTED by why it is in effect; a release that is
due is broadcast, and 24 periods later the engines resume, past the anchor if they stood at one. -/
def Obligations.HoldsComplete : Prop :=
  (∀ s : State, (∀ e ∈ s.dev.horizonDue, e.done = true) → Completes .horizonCheck s fun d =>
    d.sched.hold = s.dev.sched.hold ∧ d.horizonDue = [] ∧ d.sched.board.length = s.dev.sched.board.length ∧ d.mem = s.dev.mem) ∧
  (∀ (s : State) e, e ∈ s.dev.horizonDue → e.done = false → s.dev.sched.hold.freeze = none → Completes .horizonCheck s fun d =>
    d.sched.hold.freeze = some (s.dev.sched.sc + 24) ∧ d.sched.hold.isHold = true ∧ bit d.sched.hold.causeSet e.cause = true ∧
    d.sched.hold.held = false ∧ d.mem = s.dev.mem) ∧
  (∀ (s : State) i rest, s.dev.sched.reports = i :: rest → Completes .itemCompletion s fun d =>
    d.sched.board = s.dev.sched.board.map (fun (e : SbEntry) => if e.item = i then { e with done := true } else e) ∧
    d.sched.reports = rest.filter (· ≠ i) ∧ d.mem = s.dev.mem ∧ d.regs = s.dev.regs) ∧
  (∀ s : State, s.dev.freezeDue = true → Completes .freeze s fun d => d.sched.hold.held = true ∧
    d.run = if s.dev.sched.stop.isSome then .faulted else if s.dev.sched.hold.halt then .halted else .held) ∧
  (∀ s : State, s.dev.freezeDue = true → s.dev.sched.stop = none → s.dev.sched.hold.halt = true → Completes .freeze s fun d =>
    d.halts = [] ∧ d.mem = s.dev.mem) ∧
  (∀ s : State, s.dev.releaseDue = true → Completes .holdRelease s fun d =>
    d.sched.hold = { s.dev.sched.hold with releasing := some 24 } ∧ d.regs = s.dev.regs ∧ d.mem = s.dev.mem) ∧
  (∀ s : State, s.dev.resumeDue = true → Completes .enginesResume s fun d => d.run = .running ∧ d.sched.hold.held = false ∧
    d.sched.anchor = (if s.dev.sched.atAnchor then s.dev.sched.anchor + 1 else s.dev.sched.anchor) ∧
    d.sched.sc = s.dev.sched.sc ∧ d.mem = s.dev.mem)

/-- Anchors and marks (R43, R45 to R48, R389): once the freeze at the next anchor is due it is pending at the anchor's sc, or it waits
for an earlier freeze, and it notes SLIP_HALT; at instant Q it is noted whether anything keeps the anchor; an anchor that nothing
keeps and that froze in time is met and released for its mark; one that is not met slips, and stops as HALTED where SLIP_HALT was
noted; once nothing keeps a slipped anchor its new mark is the first that can still be met, and the release goes out for it; a new
mark takes SCH_SC into SCH_MARK_SC. -/
def Obligations.AnchorsComplete : Prop :=
  (∀ (s : State) a r, s.dev.anchorFreezeDue = true → s.dev.sched.curAnchor = some (a, r) → Completes .anchorFreeze s fun d =>
    d.mem = s.dev.mem ∧ match s.dev.sched.hold.freeze with
    | none => d.sched.hold.freeze = some a ∧ d.sched.hold.cause = 6
    | some f => d.sched.hold.freeze = some f ∧ (f < a → d.sched.hold =
        { s.dev.sched.hold with slipHalt := s.dev.flag fSCH_CTL_SLIP_HALT [], waiting := true })) ∧
  (∀ (s : State) a r, s.dev.sched.curAnchor = some (a, r) → s.dev.sched.stop = none → s.dev.judgeDue = true →
    s.dev.sched.atAnchor = false → Completes .anchorEvaluation s fun d =>
      d.sched.hold = { s.dev.sched.hold with judged := some (s.dev.anchorFree a) } ∧ d.regs = s.dev.regs ∧ d.mem = s.dev.mem) ∧
  (∀ (s : State) a r, s.dev.sched.curAnchor = some (a, r) → s.dev.run.inRun = true → s.dev.sched.stop = none →
    s.dev.sched.atAnchor = true → s.dev.sched.hold.halt = false → s.dev.sched.hold.met = false → s.dev.sched.hold.slip = false →
    (s.dev.sched.hold.judged = some true → s.dev.effectTime a ≤ s.dev.sched.target r → Completes .anchorEvaluation s fun d =>
      d.sched.hold = { s.dev.sched.hold with met := true, releasing := some (s.dev.periodsTo (s.dev.sched.target r)) } ∧
      d.mem = s.dev.mem) ∧
    (s.dev.sched.hold.judged = some false → s.dev.sched.hold.held = true → Completes .anchorEvaluation s fun d =>
      bit d.sched.hold.causeSet 7 = true ∧ d.mem = s.dev.mem ∧
      if s.dev.sched.hold.slipHalt = true ∧ s.dev.sched.hold.again = false
      then d.run = .halted ∧ d.sched.hold.halt = true ∧ d.word .rSCH_SLIP_LAST [] = BitVec.ofNat 64 a
      else d.sched.hold.slip = true ∧ d.run = s.dev.run)) ∧
  (∀ (s : State) a r, s.dev.sched.curAnchor = some (a, r) → s.dev.run.inRun = true → s.dev.sched.stop = none →
    s.dev.sched.atAnchor = true → s.dev.sched.hold.halt = false → s.dev.sched.hold.met = false → s.dev.sched.hold.slip = true →
    s.dev.sched.hold.slipMark = none → s.dev.anchorFree a = true → Completes .anchorEvaluation s fun d =>
      ∃ n ≥ 1, d.sched.slips = (s.dev.sched.slips + n) % 2 ^ 48 ∧
        d.sched.hold.slipMark = some (s.dev.sched.base + r + s.dev.sched.slips + n) ∧
        markTime (s.dev.sched.base + r + s.dev.sched.slips + n) ≥ s.dev.time + 24 * s.dev.periodLen ∧
        (n > 1 → markTime (s.dev.sched.base + r + s.dev.sched.slips + (n - 1)) < s.dev.time + 24 * s.dev.periodLen)) ∧
  (∀ (s : State) m, s.dev.slipResumeDue = true → s.dev.sched.hold.slipMark = some m → Completes .slipResume s fun d =>
    d.sched.hold = { s.dev.sched.hold with releasing := some (max 24 (s.dev.periodsTo (markTime m))) } ∧ d.mem = s.dev.mem) ∧
  (∀ s : State, s.dev.markDue = true → Completes .timeMark s fun d => d.sched.mark = s.dev.sched.tc / 8192 ∧
    d.word .rSCH_MARK_SC [] = BitVec.ofNat 64 s.dev.sched.shown ∧ d.mem = s.dev.mem)

/-- How a run ends (R33, R38, R192, R352): a run whose streams have ended and whose work is done goes to LOADED with its image kept
and nothing under way, and SCH_SC keeps what it showed; a run that is not done goes on; a stopping fault in a run notes its sc,
records itself in REC_FAULT and REC_FAULT_SC, stops the unit that detected it, takes back a release and freezes the part 24 sc on,
or keeps a freeze that is pending or in effect (log entry 74); RUN_FAULT takes the fault's status as the last fault, and a part already frozen is then FAULTED. -/
def Obligations.RunsEnd : Prop :=
  (∀ s : State, s.dev.runDone = true → Completes .runEnd s fun d => d.run = .loaded ∧ d.sched.image = s.dev.sched.image ∧
    d.sched.inFlight = [] ∧ d.sched.board = [] ∧ d.sched.streams = [] ∧ d.sched.sc = s.dev.sched.shown ∧
    (s.dev.snapReq = none → d.mem = s.dev.mem)) ∧
  (∀ s : State, s.dev.runDone = false → Runs .runEnd s s.dev) ∧
  (∀ (d : Dev) (f : FaultInfo), d.run.inRun = true → d.sched.stop = none →
    (d.stopFault f).sched.stop = some ⟨d.sched.sc, false⟩ ∧ (d.stopFault f).word .rREC_FAULT [] = BitVec.ofNat 64 (f.word false) ∧
    (d.stopFault f).word .rREC_FAULT_SC [] = BitVec.ofNat 64 d.sched.sc ∧
    (d.stopFault f).sched.hold.freeze = some (d.sched.hold.freeze.getD (d.sched.sc + 24)) ∧
    (d.stopFault f).sched.hold.releasing = none ∧ (d.stopFault f).sched.stopped = f.stops.toList ++ d.sched.stopped ∧
    (d.stopFault f).run = d.run ∧ (d.stopFault f).mem = d.mem) ∧
  (∀ s : State, s.dev.runFaultDue = true → Completes .runFault s fun d =>
    d.lastFault = (faultStatus (s.dev.getF fREC_FAULT_CODE [])).code ∧
    if s.dev.sched.hold.held then d.run = .faulted
    else d.run = s.dev.run ∧ d.sched.stop = s.dev.sched.stop.map (fun x => { x with raised := true }) ∧ d.mem = s.dev.mem)

/-! ## The lunge rings and the network -/

/-- The lunge rings (R100, R103, R104, R107, R110 to R112): an injection whose region's version is there puts its next flit into its slot
with the bytes read, if the slot is free and no word of memory holds an error; one whose version is not there is a stopping fault;
a delivery to an engine that is not fenced and has not stopped, the only one to it in its sc, adds the flit's entries to its mangers while they have
room, and is made once; a delivery to a fenced one is discarded and counted; a flit that has made its laps leaves its slot, and
is gone once no copy of it is in the shift lanes; every other flit stays. -/
def Obligations.RingsComplete : Prop :=
  (∀ (y : Fin 4) (ccw : Bool) (t : Fin 3) (s : State) b slot, s.dev.injectionDue y.val ccw t.val = some b →
    s.dev.tagSlot b.desc.inj.region b.desc.inj.gen = some slot → s.dev.errs = [] →
    (∀ g ∈ s.dev.ring, g.yard = y.val → g.ccw = ccw → g.slot = slotOf ccw t.val s.dev.sched.sc → g.out = none →
      g.gone ≤ s.dev.sched.sc) →
    let left := if b.next + 1 ≥ b.desc.inj.flits then s.dev.inject.erase b
      else s.dev.inject.map fun c => if c = b then { c with next := c.next + 1 } else c
    let bs := (Dev.flitBytes { s.dev with inject := left } b slot).1
    Completes (.ringInjection y ccw t .none) s fun d =>
      (∃ f : RingFlit, d.ring = s.dev.ring ++ [f] ∧ f.idx = b.next ∧ f.left = s.dev.sched.sc ∧ f.inj = b.desc.inj ∧ f.done = [] ∧
        f.data = bs.take b.desc.len ∧ f.side = bs.drop b.desc.len) ∧ d.inject = left ∧ SameEngines d s.dev) ∧
  (∀ (y : Fin 4) (ccw : Bool) (t : Fin 3) (s : State) b, s.dev.injectionDue y.val ccw t.val = some b →
    s.dev.tagSlot b.desc.inj.region b.desc.inj.gen = none → s.dev.run.inRun = true → s.dev.sched.stop = none →
    Completes (.ringInjection y ccw t .none) s fun d => d.ring = s.dev.ring ∧
      d.sched.stop = some ⟨s.dev.sched.sc, false⟩ ∧ d.getF fREC_FAULT_CODE [] = 6 ∧ SameEngines d s.dev) ∧
  (∀ (e : MEng) (ccw : Bool) (s : State) f lap, s.dev.deliveryDue e ccw = some (f, lap) →
    s.dev.cmdFenced e.yard.val 0 (s.dev.mPos e) = false → s.dev.isStopped (mNo e) = false → (s.dev.m e).ringAt ≠ some s.dev.sched.sc →
    let gs := f.entries s.dev e lap
    (gs.2.map (·.1)).Nodup →
    (∀ g ∈ gs.2, (Tab.get [] (s.dev.m e).mangers (mangerKey gs.1 g.1)).length + g.2.length ≤ 32) →
    Completes (.ringDelivery e ccw .none) s fun d =>
      (∀ g ∈ gs.2, Tab.get [] (d.m e).mangers (mangerKey gs.1 g.1) =
        Tab.get [] (s.dev.m e).mangers (mangerKey gs.1 g.1) ++ g.2) ∧ f ∉ d.ring ∧
      (d.m e).accA = (s.dev.m e).accA ∧ (d.m e).accB = (s.dev.m e).accB ∧ d.mem = s.dev.mem) ∧
  (∀ (e : MEng) (ccw : Bool) (s : State) f lap, s.dev.deliveryDue e ccw = some (f, lap) →
    s.dev.cmdFenced e.yard.val 0 (s.dev.mPos e) = true → Completes (.ringDelivery e ccw .none) s fun d =>
      f ∉ d.ring ∧ d.regs = (s.dev.count .rRING_DISCARD [e.yard.val] 1).regs ∧ SameEngines d s.dev) ∧
  (∀ (y : Fin 4) (ccw : Bool) (slot : Fin 84) (s : State),
    let leaves (f : RingFlit) : Prop := f.yard = y.val ∧ f.ccw = ccw ∧ f.slot = slot.val ∧ f.gone ≤ s.dev.sched.sc ∧ f.out = none
    Completes (.flitRemoval y ccw slot) s fun d =>
      (∀ f ∈ d.ring, ¬leaves f) ∧ (∀ f ∈ s.dev.ring, ¬leaves f → (f.out = none ∨ f.lingers = true) → f ∈ d.ring) ∧
      (∀ f ∈ s.dev.ring, leaves f → ((f.leave f.gone).lingers = true → f.leave f.gone ∈ d.ring)) ∧
      (∀ f ∈ d.ring, f.out ≠ none → f.lingers = true) ∧ SameEngines d s.dev)

/-- The on-die network (R205, R253, R256, R257, R261, R263): a scheduled flit that reaches the memory it is for leaves its path, and what it
writes is with the memory's banks 4 sc on, to be in place within their slack; a VC2 flit that rode a path, and a flit of the dynamic
classes, bring what they carry to their endpoint; an update command joins those its unit is to take; an adder whose pair has waited
its latency sends the sum of it to its node's destination and is then free of the pair; a flit resent over a bridge stays in the
network, and a scheduled one that fails twice is lost with every copy beyond the bridge, is noted, and is a violation. -/
def Obligations.NetworkCompletes : Prop :=
  (∀ s : State, dueFlit s.dev.sched.sc s.dev.netFrozen s.dev.net = none → Runs (.networkFlitArrival .scheduled .none) s s.dev) ∧
  (∀ (s : State) f rest c k yd space eng off, dueFlit s.dev.sched.sc s.dev.netFrozen s.dev.net = some (f, rest) →
    f.cargo = none → s.dev.isStopped (routerUnit f.yard f.router) = false → f.port < 8 → endpointAt f.router f.port = some (c, k) → f.dest = .mem yd space eng off →
    endpointHolds f.yard c f.dest f.data.length = true →
    let a := onchipAddr f.yard space (if space = 0 then 0 else eng) off
    s.dev.checkAccess a f.data.length = .good →
    Completes (.networkFlitArrival .scheduled .none) s fun d => d.net = rest ∧
      s.dev.Queued d 4 [.slack s.dev.banks.next (regionOf f.yard f.router) (if space = 0 then 2 else 4)
        (.scatter (flitWrites a f.data))] ∧ SameEngines d s.dev) ∧
  (∀ (s : State) f rest c k g, dueFlit s.dev.sched.sc s.dev.netFrozen s.dev.net = some (f, rest) → f.cargo = some g →
    endpointAt f.router f.port = some (c, k) →
    Runs (.networkFlitArrival .scheduled .none) s (Dev.unload { s.dev with net := rest } (f.yard, c) g)) ∧
  (∀ s : State, s.dev.dynDue = none → Runs (.networkFlitArrival .dynamic .none) s s.dev) ∧
  (∀ (s : State) f, s.dev.dynDue = some f →
    let d1 : Dev := { s.dev with dyn := s.dev.dyn.filter fun g => g.no ≠ f.no }
    Runs (.networkFlitArrival .dynamic .none) s ((d1.recordLatency f).unload f.dst f.cargo) ∧
    (∀ u k c, f.cargo = .command u k c → Completes (.networkFlitArrival .dynamic .none) s fun d =>
      d.dyn = d1.dyn ∧ d.updSent = s.dev.updSent ++ [(u, k, c)] ∧ SameEngines d s.dev)) ∧
  (∀ (y : Fin 4) (n : Fin 48) (half : Bool) (s : State) node st p a ls p' b rs r,
    let q := 2 * s.dev.sched.sc + b2n half
    let key := 65536 * y.val + 256 * n.val + node
    s.dev.isStopped (routerUnit y.val n.val) = false → s.dev.adderNodes y.val n.val q = [node] → Tab.find s.dev.nodes key = some st → st.served ≠ q + 1 → st.left = (p, a) :: ls →
    st.right = (p', b) :: rs → max p p' + 2 * s.dev.latency 12 ≤ q → s.dev.treeNode y.val n.val node = some r →
    let d1 : Dev := { s.dev with
      nonce := s.dev.nonce + 128
      nodes := Tab.insert s.dev.nodes key { left := ls, right := rs, outs := st.outs + 1, served := q + 1 } }
    Runs (.adderOutput y n half .none) s ((d1.count .rNOC_ADD_FLITS [y.val] 1).sendFlit y.val n.val 8 q
      (newFlit (y.val, n.val) (nodeDest r st.outs) (addFlits (r.getD 4 0 = 1) s.dev.nonce a b)))) ∧
  (∀ (y : Fin 4) (l : Fin 12) (s : State), Completes (.bridgeResend y l false) s fun d =>
    d.net = s.dev.net ∧ d.dyn.map (·.no) = s.dev.dyn.map (·.no) ∧ d.sched = s.dev.sched ∧ SameEngines d s.dev) ∧
  (∀ (y : Fin 4) (l : Fin 12) (s : State) ph, let key := 16 * y.val + (if l.val < 6 then l.val else l.val + 2)
    s.dev.onLane key = some ph → s.dev.run.inRun = true → s.dev.sched.stop = none → Completes (.bridgeResend y l true) s fun d =>
      d.net = s.dev.net.filter (fun f => !f.lanes.contains (key, ph)) ∧ d.flag fNOC_BRIDGE_LOST [y.val] = true ∧
      d.sched.stop = some ⟨s.dev.sched.sc, false⟩ ∧ d.getF fREC_FAULT_CODE [] = 1 ∧ SameEngines d s.dev)

/-! ## Memory tiers and update units -/

/-- What the memories do by themselves (R213, R224 to R227): the scrubber of a bank that no port reads takes its turn in the period,
and where no word holds an error changes nothing else; one whose bank a port reads waits; a patrol read without an error changes
neither memory nor a register, one whose symbol the on-die code has corrected is counted, and one that finds two symbols of HBM4 in
error leaves a word that cannot be corrected; a temperature read shows in MEM_STAT and doubles the refresh rate from 85 °C, halves it
again below 80 °C and keeps it between; the eye margin shows the smallest value seen, MARGIN_LOW set below 8 steps. -/
def Obligations.MemoryTiersComplete : Prop :=
  (∀ (y : Fin 4) (sp : Fin 6) (pos : Fin 18) (bank : Fin 64) (w : Fin 16) (s : State), s.dev.up = true →
    s.dev.flag fOCM_CTL_SCRUB_EN [y.val] = true →
    let key := bankKey y.val sp.val pos.val bank.val
    (s.dev.bankRead key = true → Runs (.scrub y sp pos bank w .none) s s.dev) ∧
    (s.dev.bankRead key = false → key ∉ s.dev.scrub.now → pos.val < spacePositions sp.val → bank.val < spaceBanks sp.val →
      s.dev.errs = [] → Runs (.scrub y sp pos bank w .none) s
        { s.dev with scrub := { s.dev.scrub with now := key :: s.dev.scrub.now } })) ∧
  (∀ (a : BitVec 48) (e : TierErr) (s : State) u, tierController a.toNat = some u → s.dev.up = true →
    s.dev.flag fMEM_CTL_SCRUB_EN [u] = true → s.dev.populated a.toNat 1 = true → s.dev.errs = [] →
    (e.parts = 0 → e.bits = 0 → Completes (.patrolScrub a e) s fun d => d.mem = s.dev.mem ∧ d.errs = [] ∧
      d.sched = s.dev.sched ∧ d.regs = if e.onDie && u % 5 < 3 then (s.dev.count .rMEM_ODECC_CNT [u] 1).regs else s.dev.regs) ∧
    (u % 5 < 3 → e.parts = 2 → Completes (.patrolScrub a e) s fun d =>
      ∃ w, Tab.find d.errs (a.toNat / 64 * 64) = some w ∧ w.uncorr = true)) ∧
  (∀ (u : Fin 20) (t : Byte) (s : State), s.dev.up = true → s.dev.flag fMEM_STAT_FAILED [u.val] = false →
    Completes (.memoryTemperatureRead u t) s fun d => d.getF fMEM_STAT_TEMP [u.val] = t.toNat ∧ d.mem = s.dev.mem ∧
      d.flag fMEM_STAT_REFRESH2X [u.val] =
        if t.toInt ≥ 85 then true else if t.toInt < 80 then false else s.dev.flag fMEM_STAT_REFRESH2X [u.val]) ∧
  (∀ (u : Fin 20) (m : Byte) (s : State), s.dev.up = true → s.dev.flag fMEM_STAT_FAILED [u.val] = false →
    s.dev.flag fMEM_CTL_CAL_FREEZE [u.val] = false → Completes (.readThresholdAdaptation u m) s fun d =>
      d.getF fMEM_CAL_MARGIN [u.val] = min m.toNat (s.dev.getF fMEM_CAL_MARGIN [u.val]) ∧
      (d.getF fMEM_CAL_MARGIN [u.val] < 8 → d.flag fMEM_STAT_MARGIN_LOW [u.val] = true) ∧ d.mem = s.dev.mem)

/-- Update commands (R134 to R138, R161, R168, R171): while there is room, the oldest command of a sender that has come to the unit
enters its queue, or its list of releases; SETCOEF writes its coefficients into every group it names and completes at once; the head
of the queue starts, when its gradient and its list lie where they may and its list passes, if it has no region, or its tag is newer
and no version is pending (and none stashed, where the region is stashed), which makes it the pending one; a tag that is not newer is
a stopping fault in a run; a command whose parameters are all done completes, is reported, and its version becomes the current
one; a release that is ready completes, is reported, and drops the stashed version it names.

The recurrence and its tags (R135, R162, R163): a generation is never newer than itself, and of two that differ by other than
32,768 exactly one is newer; f = 0 gives zero and f = 1 its argument; RSQRT and RCP of a zero give the largest finite value and
set DIV0, RSQRT of a NaN gives a NaN; the sign of a zero is zero; what clip gives is no larger than its bound. -/
def Obligations.UpdatesAndValues : Prop :=
  -- Updates complete
  ((∀ (u : Fin 20) (e : SEng) (s : State) m, s.dev.updSent.find? (fun m => m.1 = u.val && m.2.1 = sKey e) = some m →
    (s.dev.unit u.val).queue.length < 64 → m.2.2.opc ≠ 3 → (m.2.2.opc = 4 → (s.dev.unit u.val).releases.length < 16) →
    Completes (.updateCommandArrival u e) s fun d => d.updSent = s.dev.updSent.erase m ∧ SameEngines d s.dev ∧
      d.unit u.val = if m.2.2.opc = 4 then { s.dev.unit u.val with releases := (s.dev.unit u.val).releases ++ [m.2.2] }
        else { s.dev.unit u.val with queue := (s.dev.unit u.val).queue ++ [m.2.2] }) ∧
  (∀ (u : Fin 20) (e : SEng) (s : State) m, s.dev.updSent.find? (fun m => m.1 = u.val && m.2.1 = sKey e) = some m →
    (s.dev.unit u.val).queue.length < 64 → m.2.2.opc = 3 → Completes (.updateCommandArrival u e) s fun d =>
      (∀ g ≤ m.2.2.gcount, ∀ i j, ((List.range 16).filter fun j => bit m.2.2.cmask j)[i]? = some j →
        d.coef u.val ((m.2.2.group + g) % 256) j = nth 0 m.2.2.vals i % 2 ^ 32) ∧
      d.sched.reports = s.dev.sched.reports ++ [m.2.2.item] ∧ d.updSent = s.dev.updSent.erase m ∧ SameEngines d s.dev) ∧
  (∀ (u : Fin 20) (s : State) c rest sh, s.dev.isStopped (updUnit u.val) = false → (s.dev.unit u.val).running = none →
    (s.dev.unit u.val).queue = c :: rest →
    s.dev.shard c.shard = some sh → c.listOut u.val = none → s.dev.updOut u.val c sh = none →
    let d1 := s.dev.setUnit u.val { s.dev.unit u.val with queue := rest }
    badIndex (sh.count / max 1 sh.rowlen) 0 none (if c.opc = 2 then (d1.indexList u.val c).1 else []) = none →
    let r := if sh.hasRegion then s.dev.region sh.region else none
    let t := s.dev.tag sh.region
    (r = none → Completes (.updateStart u) s fun d => SameEngines d s.dev ∧ (d.unit u.val).queue = rest ∧
      ∃ x, (d.unit u.val).running = some x ∧ x.cmd = c ∧ x.done = 0) ∧
    (∀ g, r = some g → (g.stashed = true ∨ s.dev.expected sh.region t.cur = false) → newer c.gen t.cur = true →
      t.pendingValid = false → (g.stashed = true → t.stashValid = false) → Completes (.updateStart u) s fun d =>
        SameEngines d s.dev ∧ (d.unit u.val).queue = rest ∧
        (∃ x, (d.unit u.val).running = some x ∧ x.cmd = c ∧ x.done = 0) ∧
        d.tag sh.region = { t with pending := c.gen % 65536, pendingValid := true }) ∧
    (∀ g, r = some g → (g.stashed = true ∨ s.dev.expected sh.region t.cur = false) → newer c.gen t.cur = false → s.dev.run.inRun = true → s.dev.sched.stop = none →
      Completes (.updateStart u) s fun d => (d.unit u.val).running = none ∧ d.sched.stop.isSome = true ∧
        d.tag sh.region = t ∧ SameEngines d s.dev)) ∧
  (∀ (u : Fin 20) (s : State) run sh, (s.dev.unit u.val).running = some run → s.dev.shard run.cmd.shard = some sh →
    run.done ≥ run.cmd.total sh → ∀ l, Completes (.updateCompletion u ⟨false, 0, 0, l⟩) s fun d => (d.unit u.val).running = none ∧
      (d.unit u.val).queue = (s.dev.unit u.val).queue ∧ d.sched.reports = s.dev.sched.reports ++ [run.cmd.item] ∧
      (∀ g, sh.hasRegion = true → s.dev.region sh.region = some g → (d.tag sh.region).cur = run.cmd.gen % 65536 ∧
        (d.tag sh.region).pendingValid = false ∧ (g.stashed = true → (d.tag sh.region).stash = (s.dev.tag sh.region).cur ∧
          (d.tag sh.region).stashValid = true ∧ (d.tag sh.region).slot = 1 - (s.dev.tag sh.region).slot))) ∧
  (∀ (u : Fin 20) (i : Fin 16) (s : State) c, (s.dev.unit u.val).releases[i.val]? = some c → s.dev.releaseReady c = true →
    Completes (.stashRelease u i) s fun d => (d.unit u.val).releases = (s.dev.unit u.val).releases.eraseIdx i.val ∧
      d.sched.reports = s.dev.sched.reports ++ [c.item] ∧ ((d.tag c.region).stashValid = true → (d.tag c.region).stash ≠ c.gen % 65536) ∧
      SameEngines d s.dev)) ∧
  -- Update values
  ((∀ a b : BitVec 16, newer a.toNat a.toNat = false ∧ (newer a.toNat b.toNat = true → newer b.toNat a.toNat = false) ∧
    (a ≠ b → a - b ≠ 0x8000 → newer a.toNat b.toNat = true ∨ newer b.toNat a.toNat = true)) ∧
  (∀ x : Nat, ((val32 x).isNan = true → (flRoot 1 (x, 0)).1 = 0x7FC00000) ∧ (flSquare 0 (x, 0)).1 = 0 ∧
    (flSquare 1 (x, 0)).1 = x) ∧
  (∀ x ∈ [0, 0x80000000], flRoot 1 (x, 0) = (0x7F7FFFFF, 8) ∧ flRoot 2 (x, 0) = (0x7F7FFFFF, 8) ∧ (flSign (x, 0)).1 = 0) ∧
  (∀ b x : Nat, x < 2 ^ 32 → b < 2 ^ 31 → (val32 b).isNan = false → (val32 x).isNan = false →
    cmpElem 3 0 ((flClip (x, 0) b 4).1 % 2 ^ 31) b = true))

/-! ## Clocks, rails, power and temperature -/

/-- Stretching (R291 to R293, R305): a droop lengthens a period of its region, once more in its window, or is missed within 31 sc of
the last stretch; no skew passes 12 if none did; at a window's boundary the counts start anew, with the pace cycles of the first
region among its extra periods; when a power stretch is due, each region that has not just stretched stretches, and none is due again
in the same group of 64 sc.

Rails (R289, R302, R303): each ms the loop raises by 5 mV the trim of a region that stretched in more than 4 of the last 64
windows and lowers by 5 mV that of one that has not stretched in 1,024, within −30 to +50 mV, unless the rail is frozen or has a
fault; a rail fault is shown; every target is within 550 to 800 mV; a slower point's rails go down when their time has come. -/
def Obligations.StretchingAndRailsComplete : Prop :=
  -- Stretching completes
  ((∀ (r : Fin 16) (s : State), s.dev.up = true → s.dev.sched.hold.held = false → s.dev.justStretched r.val = true →
    Completes (.droopStretch r) s fun d => d.flag fCLK_REGION_MISSED [r.val] = true ∧ d.clocks.counts = s.dev.clocks.counts ∧
      d.mem = s.dev.mem) ∧
  (∀ (r : Fin 16) (s : State), s.dev.up = true → s.dev.sched.hold.held = false → s.dev.justStretched r.val = false →
    s.dev.clocks.inSc = s.dev.inSc → Completes (.droopStretch r) s fun d => d.stretchCount r.val = s.dev.stretchCount r.val + 1 ∧ d.justStretched r.val = true ∧
      ((∀ q < 16, s.dev.skew q ≤ 12) → ∀ q < 16, d.skew q ≤ 12) ∧ d.mem = s.dev.mem) ∧
  (∀ s : State, s.dev.windowDue = true → Completes .stretchWindowBoundary s fun d =>
    (∀ q, d.stretchCount q = 0) ∧ d.windowDue = false ∧ d.clocks.history.length ≤ 1024 ∧
    d.clocks.extra = s.dev.clocks.extra + (s.dev.highestCount - s.dev.stretchCount 0) ∧ d.mem = s.dev.mem) ∧
  (∀ s : State, s.dev.powerStretchDue = true → Completes .powerStretch s fun d => d.powerStretchDue = false ∧
    (∀ q < 16, s.dev.justStretched q = false → d.stretchCount q > s.dev.stretchCount q) ∧ d.mem = s.dev.mem)) ∧
  -- Rails complete
  ((∀ s : State, s.dev.voltageDue = true → Completes .voltageLoopTick s fun d => d.voltageDue = false ∧ d.mem = s.dev.mem ∧ d.sched = s.dev.sched ∧
    ∀ r < 16,
      let recent := ((s.dev.clocks.history.take 64).filter fun m => bit m r).length
      let quiet := s.dev.clocks.history.length ≥ 1024 ∧ ∀ m ∈ s.dev.clocks.history, bit m r = false
      if s.dev.flag fCLK_AVS_FREEZE [r] || s.dev.flag fCLK_AVS_FAULT [r] then d.trim r = s.dev.trim r
      else if recent > 4 then d.trim r = max (-30) (min 50 (s.dev.trim r + 5))
      else if quiet then d.trim r = max (-30) (min 50 (s.dev.trim r - 5)) else d.trim r = s.dev.trim r) ∧
  (∀ (r : Fin 16) (s : State), s.dev.up = true → Completes (.avsRailFault r) s fun d => d.flag fCLK_AVS_FAULT [r.val] = true ∧
    (∀ x, s.dev.clocks.change = some x → x.faster = true → ∃ y, d.clocks.change = some y ∧ r.val ∈ y.unconfirmed) ∧
    d.mem = s.dev.mem) ∧
  (∀ (r : Fin 16) (d : Dev), (d.setRail r.val).getF fCLK_AVS_VOUT [r.val] = (max 550 (min 800
    ((d.recordVolt r.val d.clocks.railOp : Int) + d.trim r.val + signed 8 (d.getF fCLK_AVS_OFS [r.val])))).toNat) ∧
  (∀ s : State, s.dev.lowerDue = true → Completes .railLowering s fun d => d.clocks.lowerAt = none ∧
    d.clocks.railOp = s.dev.getF fCLK_OP_CURRENT [] ∧ d.clocks.trim = s.dev.clocks.trim ∧ d.mem = s.dev.mem ∧
    ∀ r < 16, d.getF fCLK_AVS_VOUT [r] = (max 550 (min 800 ((s.dev.recordVolt r (s.dev.getF fCLK_OP_CURRENT []) : Int) +
      s.dev.trim r + signed 8 (s.dev.getF fCLK_AVS_OFS [r])))).toNat))

/-- The power limit (R304, R305): SET_POWER_LIMIT takes 500 W to 3,000 W, BOARD from the sideband alone, and refuses anything else;
a sample shows the rail currents and the mean of the window in CLK_PL; the loop steps LOOP by one, and schedules the change
32,000 tc on where the operating point in force is to be another.

Temperature (R306): too hot, THROTTLING is set and LOOP steps down one point where it can; cool again, THROTTLING is clear; at
110 °C the part trips: no stream and no result in flight is left, the part is FAULTED, TRIP is shown, and every power domain but
the two that stay is off. -/
def Obligations.PowerAndThermalLoopsComplete : Prop :=
  -- Power limit completes
  ((∀ h (w : BitVec 16) (f : Byte), 500 ≤ w.toNat → w.toNat ≤ 3000 → f = 0 ∨ (f = 1 ∧ h.src = .sideband) →
    Answers (.setPowerLimit h w f) 0x21 h (fun _ => True) .ok (fun _ => 0)
      fun d => (d.setF (if f = 1 then fCLK_PL_BOARD_CAP else fCLK_PL_LIMIT) [] w.toNat).watchPower) ∧
  (∀ h (w : BitVec 16) (f : Byte), w.toNat < 500 ∨ w.toNat > 3000 ∨ f.toNat ≥ 2 ∨ (f = 1 ∧ h.src ≠ .sideband) →
    Answers (.setPowerLimit h w f) 0x21 h (fun _ => True) .badParam (fun _ => 0) id) ∧
  (∀ (amps : BitVec 256) (other : BitVec 16) (s : State), s.dev.up = true → Completes (.powerSample amps other) s fun d =>
    (∀ r < 16, d.getF fCLK_AVS_IOUT [r] = amps.toNat / 2 ^ (16 * r) % 65536) ∧
    d.getF fCLK_PL_MEASURED [] = min 65535 (mean d.clocks.samples) ∧
    d.clocks.samples = ((((List.range 16).foldl (fun m r => m + s.dev.getF fCLK_AVS_VOUT [r] *
      (amps.toNat / 2 ^ (16 * r) % 65536)) 0) / 1000 + other.toNat) :: s.dev.clocks.samples).take
        (10 * s.dev.getF fCLK_PL_CTL_TAU_MS []) ∧ d.mem = s.dev.mem) ∧
  (∀ s : State,
    let go (i : Instr) (v : Nat) : Prop := Completes i s fun d => d.getF fCLK_OP_LOOP [] = v ∧ d.mem = s.dev.mem ∧
      let p := max (s.dev.getF fCLK_OP_REQ []) v
      if p = s.dev.getF fCLK_OP_CURRENT [] then d.clocks.change = none
      else d.sched.tc = s.dev.sched.tc ∧ d.followsWanted p
    (s.dev.stepDownDue = true → go .powerLimitStepDown (s.dev.getF fCLK_OP_LOOP [] + 1)) ∧
    (s.dev.stepUpDue = true → go .powerLimitStepUp (s.dev.getF fCLK_OP_LOOP [] - 1)))) ∧
  -- Thermal loop completes
  ((∀ s : State, s.dev.thermalDue = true → s.dev.hot = true → Completes .thermalThrottleStep s fun d =>
    d.flag fCLK_THERM_THROTTLING [] = true ∧ d.clocks.lastThermal = some s.dev.sched.ref ∧ d.mem = s.dev.mem ∧
    d.getF fCLK_OP_LOOP [] = if s.dev.getF fCLK_OP_LOOP [] < 4 ∧ s.dev.clocks.change = none
      then s.dev.getF fCLK_OP_LOOP [] + 1 else s.dev.getF fCLK_OP_LOOP []) ∧
  (∀ s : State, s.dev.thermalDue = true → s.dev.hot = false → Completes .thermalThrottleStep s fun d =>
    d.flag fCLK_THERM_THROTTLING [] = false ∧ d.clocks.lastThermal = none ∧ d.mem = s.dev.mem) ∧
  (∀ s : State, s.dev.tripDue = true → Completes .thermalTrip s fun d => d.run = .faulted ∧ d.tripped = true ∧
    d.flag fCLK_THERM_TRIP [] = true ∧ d.sched.streams = [] ∧ d.sched.inFlight = [] ∧
    d.word .rCLK_PD_CTL [] = BitVec.ofNat 64 (3 * 2 ^ 34) ∧ ∀ pd < 40, pd ≠ 34 → pd ≠ 35 → d.domainOn pd = false))

/-- A change of operating point (R294 to R296): SET_OPERATING_POINT at least 32,000 tc ahead schedules one, too near a time or an
unknown point is BAD_PARAM, and one while a change is pending BUSY; a faster point's rails are written ahead; a rail that does not
confirm cancels it; a run freezes with cause RELOCK; the dividers of all yards then switch to those of the point, and the meshes
settle within 256 tc; where REQ and LOOP ask for another point by then, the change to it is scheduled 32,000 tc on.

PLLs (R297, R298): a drifting PLL unlocks and starts the first of three attempts of 5 µs, with a freeze of cause RELOCK in a run;
relocked, it is LOCKED; after the third attempt FAIL is set and PLL_FAIL stops the run; an abrupt loss is a violation. -/
def Obligations.ClocksChange : Prop :=
  -- Operating point changes
  ((∀ h (op f : Byte) (t : Word), op.toNat ≤ 4 → f.toNat < 2 → Answers (.setOperatingPoint h op f t) 0x20 h
    (fun d => d.clocks.change = none ∧ (f = 0 → d.sched.tc + 32000 ≤ t.toNat)) .ok (fun _ => 0)
    fun d => (d.setF fCLK_OP_REQ [] op.toNat).followOp (if f = 1 then d.sched.tc + 32000 else t.toNat)) ∧
  (∀ h (op f : Byte) (t : Word), Answers (.setOperatingPoint h op f t) 0x20 h
    (fun d => op.toNat > 4 ∨ f.toNat ≥ 2 ∨ (f = 0 ∧ t.toNat < d.sched.tc + 32000)) .badParam (fun _ => 0) id) ∧
  (∀ h (op f : Byte) (t : Word), op.toNat ≤ 4 → f.toNat < 2 → Answers (.setOperatingPoint h op f t) 0x20 h
    (fun d => d.clocks.change.isSome = true ∧ (f = 0 → d.sched.tc + 32000 ≤ t.toNat)) .busy (fun _ => 0) id) ∧
  (∀ s x, s.dev.clocks.change = some x → s.dev.railWriteDue = true → Completes .opChangeRailWrite s fun d =>
    d.clocks.change = some { x with written := true } ∧ d.clocks.railOp = x.target ∧ d.mem = s.dev.mem ∧
    ∀ r < 16, d.getF fCLK_AVS_VOUT [r] = (max 550 (min 800 ((s.dev.recordVolt r x.target : Int) + s.dev.trim r +
      signed 8 (s.dev.getF fCLK_AVS_OFS [r])))).toNat) ∧
  (∀ s x, s.dev.clocks.change = some x → s.dev.confirmDue = true → Completes .opChangeConfirmDeadline s fun d =>
    d.clocks.railOp = s.dev.getF fCLK_OP_CURRENT [] ∧ d.flag fCLK_OP_FAIL [] = true ∧ d.mem = s.dev.mem ∧
    if s.dev.opWanted = x.target ∨ s.dev.opWanted = s.dev.getF fCLK_OP_CURRENT []
    then d.clocks.change = none ∧ d.flag fCLK_OP_PENDING [] = false else d.followsWanted s.dev.opWanted) ∧
  (∀ s : State, s.dev.relockFreezeDue = true → s.dev.sched.hold.freeze = none → Completes .relockFreeze s fun d =>
    d.sched.hold.freeze = some (if s.dev.sched.begun then s.dev.sched.sc + 24 else 0) ∧ d.sched.hold.cause = 8 ∧
    d.relocking = true ∧ d.mem = s.dev.mem) ∧
  (∀ s x, s.dev.clocks.change = some x → s.dev.switchDue = true → x.target ≤ 4 → Completes .dividerSwitch s fun d =>
    (∀ y < 4, d.getF fCLK_PLL_DIVIDER [y] = nth 0 [12, 15, 20, 30, 60] x.target) ∧ d.getF fCLK_OP_CURRENT [] = x.target ∧
    d.clocks.settleAt = some (s.dev.sched.ref + 2304) ∧ d.mem = s.dev.mem ∧
    if s.dev.opWanted = x.target then d.clocks.change = none ∧ d.flag fCLK_OP_PENDING [] = false
    else d.followsWanted s.dev.opWanted) ∧
  (∀ s : State, s.dev.settleDue = true →
    Runs .clockSettled s { s.dev with clocks := { s.dev.clocks with settleAt := none } })) ∧
  -- Plls relock
  ((∀ (y : Fin 4) (s : State), s.dev.up = true → s.dev.flag fCLK_PLL_LOCKED [y.val] = true → Completes (.pllDrift y) s fun d =>
    d.flag fCLK_PLL_LOCKED [y.val] = false ∧ d.mem = s.dev.mem ∧
    Tab.find d.clocks.relock y.val =
      some (1, s.dev.sched.ref + (if s.dev.run.inRun then 24 * s.dev.periodLen else 0) + 36000) ∧
    (s.dev.run.inRun = true → s.dev.sched.hold.freeze = none → d.sched.hold.cause = 8 ∧
      d.sched.hold.freeze = some (if s.dev.sched.begun then s.dev.sched.sc + 24 else 0))) ∧
  (∀ (y : Fin 4) (s : State), s.dev.up = true → s.dev.flag fCLK_PLL_LOCKED [y.val] = false → Completes (.pllRelocked y) s fun d =>
    d.flag fCLK_PLL_LOCKED [y.val] = true ∧ Tab.find d.clocks.relock y.val = none ∧ d.mem = s.dev.mem) ∧
  (∀ (y : Fin 4) (s : State) n t, Tab.find s.dev.clocks.relock y.val = some (n, t) → s.dev.sched.ref ≥ t →
    Completes (.pllRelockTimeout y) s fun d => d.mem = s.dev.mem ∧
      if n < 3 then Tab.find d.clocks.relock y.val = some (n + 1, s.dev.sched.ref + 36000) ∧ d.sched = s.dev.sched
      else d.flag fCLK_PLL_FAIL [y.val] = true ∧ Tab.find d.clocks.relock y.val = none ∧
        (s.dev.run.inRun = true → d.sched.stop.isSome = true)) ∧
  (∀ (y q : Fin 4) (s : State), s.dev.up = true → Completes (.pllLossOfLock y q) s fun d =>
    d.flag fCLK_PLL_LOCKED [y.val] = false ∧ d.mem = s.dev.mem ∧ (s.dev.run.inRun = true → d.sched.stop.isSome = true)))

/-! ## The fabric -/

/-- Ports train and go down (R267, R269, R270, R273): FABRIC_TRAIN is a long command under which every port it names trains, or stays
DOWN where it is not enabled; with OP 1, and FABRIC_TAKE_DOWN, the ports it names are DOWN and stay so; a trained port is
UP with all 8 lanes, or with 4 where that is allowed, and shows its peer, else DOWN; when no named port trains any more the command
completes; a port that fails trains again. -/
def Obligations.PortsTrain : Prop :=
  (∀ h (ports : BitVec 32) (w : Byte) (s : State), ports ≠ 0 → ports.toNat < 2 ^ 24 → w.toNat ≤ 1 → s.dev.Accepts 0x70 h →
    ((s.dev.run = .running ∨ s.dev.run = .held) → ∀ p < 24, bit ports.toNat p = true → s.dev.getF fFAB_PORT_STAT_STATE [p] = 0) →
    Completes (.fabricTrain h ports 0 w) s fun d => (∃ m, d.long = some ⟨s.dev.owed 0x70 h, .train m⟩) ∧ d.mem = s.dev.mem ∧
      ∀ p < 24, bit ports.toNat p = true → d.getF fFAB_PORT_STAT_STATE [p] = b2n (s.dev.portEnabled p)) ∧
  (∀ h (ports : BitVec 32) (w : Byte) (s : State), ports ≠ 0 → ports.toNat < 2 ^ 24 → w.toNat ≤ 1 → s.dev.Accepts 0x70 h →
    s.dev.run ≠ .running → s.dev.run ≠ .held → ∀ i ∈ [Instr.fabricTrain h ports 1 w, .fabricTakeDown h ports w],
    ∃ d : Dev, Runs i s (d.complete (s.dev.owed 0x70 h) .ok 0) ∧ d.mem = s.dev.mem ∧
      ∀ p < 24, bit ports.toNat p = true → d.getF fFAB_PORT_STAT_STATE [p] = 0 ∧ (d.fport p).down = true) ∧
  (∀ (p : Fin 24) (l pol : Byte) (rev : Bool) (fl : BitVec 16) (peer : BitVec 10) (m : Byte) (as : BitVec 16) (s : State), s.dev.up = true →
    s.dev.getF fFAB_PORT_STAT_STATE [p.val] = 1 → Completes (.portTrainingComplete p l pol rev fl peer m as) s fun d =>
      d.getF fFAB_PORT_STAT_PEER [p.val] = peer.toNat ∧ d.getF fFAB_PORT_STAT_LANES [p.val] = l.toNat ∧
      d.getF fFAB_PORT_EQ_MARGIN [p.val] = m.toNat ∧ d.mem = s.dev.mem ∧ d.getF fFAB_PORT_STAT_STATE [p.val] =
        if l = 0xFF ∨ ((s.dev.fport p.val).wide = false ∧ (l.toNat % 16 = 15 ∨ l.toNat / 16 = 15)) then 2 else 0) ∧
  (∀ r (s : State) o m, s.dev.long = some ⟨o, .train m⟩ →
    (s.dev.trained m = true → Runs (.longCommandComplete r) s (Dev.complete { s.dev with long := none } o .ok 0)) ∧
    (s.dev.trained m = false → Runs (.longCommandComplete r) s s.dev)) ∧
  (∀ (p : Fin 24) (s : State), s.dev.up = true → s.dev.getF fFAB_PORT_STAT_STATE [p.val] = 2 → Completes (.portDown p) s fun d =>
    d.getF fFAB_PORT_STAT_STATE [p.val] = 1 ∧ d.mem = s.dev.mem)

/-- Frames and packets (R271 to R274, R276, R277): a frame that fails its CRC asks for a replay and changes nothing of the fabric; the one
expected is counted and its packet goes on: a REDUCE or RESET packet for this device has then arrived, a WRITE packet travels to
its memory on VC3; a replay sends again from the frame named, and when 32 replays of it have failed the port trains anew; a WRITE
packet that has arrived, of this epoch and with no error in memory, lands its bytes at its address and nowhere else, one refused
nothing.

Fabric nodes (R282, R283): while the queue of an input has room for them, the units of an up-packet join the queue of the input
it comes from; a down-packet delivers its units in turn, while the delivery has room; when every input has a unit, the adder is
free and a result has room, one unit of each is taken, and the node's next unit goes up, or is its result. -/
def Obligations.PacketsAndNodesComplete : Prop :=
  -- Packets land
  ((∀ (p : Fin 24) seq ack wh fec ks (s : State), s.dev.up = true → s.dev.linkUp p.val = true →
    Completes (.frameReceived p false seq ack wh fec ks) s fun d =>
      d.out = .replayRequest p.val (s.dev.fport p.val).rxSeq :: s.dev.out ∧ d.fab = s.dev.fab ∧ d.mem = s.dev.mem) ∧
  (∀ (p : Fin 24) (seq : BitVec 12) ack wh fec ks (s : State), s.dev.up = true → s.dev.linkUp p.val = true →
    seq.toNat = (s.dev.fport p.val).rxSeq → Completes (.frameReceived p true seq ack wh fec ks) s fun d =>
      (d.fport p.val).rxSeq = (seq.toNat + 1) % 4096 ∧ d.mem = s.dev.mem ∧
      ∀ k, ks = [k] → (packetOf k).dst = s.dev.devId → nth 0 (packetOf k).header 7 < 64 →
        ((packetOf k).type ∈ [2, 4] → d.fab.arrived = s.dev.fab.arrived ++ [packetOf k]) ∧
        (∀ e, (packetOf k).type = 1 → landingEnd ((packetOf k).addr % 2 ^ 48) = some e →
          ∃ f ∈ d.dyn, f.vc = 3 ∧ f.src = fabEnd p.val ∧ f.dst = e ∧ f.cargo = .transit 24 (some (packetOf k)))) ∧
  (∀ (p : Fin 24) (seq : BitVec 12) (s : State) f fs, s.dev.up = true → s.dev.linkUp p.val = true →
    (s.dev.fport p.val).replay.dropWhile (fun f => f.seq ≠ seq.toNat) = f :: fs →
    (f.replays = 0 ∨ f.fails < 31 → Completes (.replayRequest p seq) s fun d => d.linkUp p.val = true ∧ d.mem = s.dev.mem ∧
      (d.fport p.val).replay.map (fun g => (g.seq, g.replays)) =
        ((s.dev.fport p.val).replay.takeWhile fun f => f.seq ≠ seq.toNat).map (fun g => (g.seq, g.replays)) ++
          (f :: fs).map fun g => (g.seq, g.replays + 1)) ∧
    (f.replays ≠ 0 → f.fails ≥ 31 → Completes (.replayRequest p seq) s fun d =>
      d.getF fFAB_PORT_STAT_STATE [p.val] = 1 ∧ d.mem = s.dev.mem)) ∧
  (∀ (n : Byte) (s : State) k, s.dev.arrivedPacket 1 n.toNat = some k →
    let a := k.addr % 2 ^ 48
    (s.dev.refusesPacket k = false → namesQueue a = false → s.dev.checkAccess a k.payload.length = .good → s.dev.errs = [] →
      Completes (.write n) s fun d =>
        d.fab.arrived = s.dev.fab.arrived.erase k ∧ d.mem = (s.dev.pokes a k.payload).mem ∧
        ∀ b, (∀ i < k.payload.length, s.dev.memKey (a + i) ≠ b) → d.byteAt b = s.dev.byteAt b) ∧
    (s.dev.refusesPacket k = true → Completes (.write n) s fun d =>
      d.fab.arrived = s.dev.fab.arrived.erase k ∧ d.mem = s.dev.mem))) ∧
  -- Fabric nodes add
  ((∀ (n : Byte) (s : State) k r c i, s.dev.arrivedPacket 2 n.toNat = some k → s.dev.refusesPacket k = false →
    s.dev.fabRecords k.flow = some (r, c) → bit k.flags 0 = false →
    (List.range (field r 6 1)).find? (fun i => !bit (inputOf r i) 15 && inputOf r i % 1024 = k.src) = some i →
    256 * (Tab.get [] (s.dev.fabNode k.flow).inputs i).length + k.payload.length ≤ 65536 → Completes (.reduce n) s fun d =>
      Tab.get [] (d.fabNode k.flow).inputs i = Tab.get [] (s.dev.fabNode k.flow).inputs i ++ unitsOf k.payload ∧
      (∀ j ≠ i, Tab.get [] (d.fabNode k.flow).inputs j = Tab.get [] (s.dev.fabNode k.flow).inputs j) ∧
      d.fab.arrived = s.dev.fab.arrived.erase k ∧ d.mem = s.dev.mem) ∧
  (∀ (n : Byte) (s : State) k r c, s.dev.arrivedPacket 2 n.toNat = some k → s.dev.refusesPacket k = false →
    s.dev.fabRecords k.flow = some (r, c) → bit k.flags 0 = true → k.payload.length ≤ 256 * s.dev.resultRoom r c →
    Completes (.reduce n) s fun d =>
      (d.fabNode k.flow).down = (s.dev.fabNode k.flow).down + k.payload.length / 256 ∧
      (d.fabNode k.flow).up = (s.dev.fabNode k.flow).up) ∧
  (∀ (n : BitVec 16) (s : State) r c, s.dev.fabRecords n.toNat = some (r, c) → 0 < field r 6 1 →
    (∀ i < field r 6 1, (s.dev.inputUnit n.toNat r i).isSome = true) →
    Tab.get 0 s.dev.fab.adders (48 * field r 1 1 + field r 2 1) = 0 →
    (field r 10 2 = 0xFFFF → s.dev.resultRoom r c ≠ 0) → Completes (.fabricNodeUnit n) s fun d =>
      (d.fabNode n.toNat).up = (s.dev.fabNode n.toNat).up + 1 ∧
      (d.fabNode n.toNat).down = (s.dev.fabNode n.toNat).down + (if field r 10 2 = 0xFFFF then 1 else 0) ∧
      ∀ i < field r 6 1, bit (inputOf r i) 15 = false →
        Tab.get [] (d.fabNode n.toNat).inputs i = (Tab.get [] (s.dev.fabNode n.toNat).inputs i).drop 1))

/-- Membership and resets (R279, R281): SET_MEMBERSHIP is one change of FAB_ID and of the whole route table to what is staged,
refused in a run with BUSY; RESET_ALL of this epoch starts a local reset, and one of another is BAD_PARAM; a RESET packet of this
epoch starts one unless another did within 100 ms, and is gone either way; the local reset ends in READY with no image.

Time (R285, R286): an exchange with the upstream, from the two timestamps the port has kept and the two of the peer, shows HOPS, the
bound, the offset and the delay, and moves the state to LOCKED at the third good one in a row, to ACQUIRING where it is not good; one
with another port only counts; without both timestamps there is none; 3 ms without one is HOLDOVER, which keeps the rate. -/
def Obligations.MembershipAndTimeComplete : Prop :=
  -- Membership and resets
  ((∀ h (epoch : BitVec 32) (dev tsrc : BitVec 16), dev.toNat ≤ 1023 → tsrc.toNat ≤ 1023 ∨ tsrc = 0xFFFF →
    Answers (.setMembership h epoch dev tsrc 0) 0x24 h (fun d => d.run = .ready ∨ d.run = .loaded ∨ d.run = .faulted) .ok
      (fun _ => 0) fun d => d.setMembership epoch.toNat dev.toNat tsrc.toNat) ∧
  (∀ h (epoch : BitVec 32) (dev tsrc : BitVec 16), dev.toNat ≤ 1023 → tsrc.toNat ≤ 1023 ∨ tsrc = 0xFFFF →
    Answers (.setMembership h epoch dev tsrc 0) 0x24 h (fun d => d.run.inRun = true) .busy (fun _ => 0) id) ∧
  (∀ (d : Dev) (epoch : BitVec 32) (dev : Fin 1024) (tsrc : Nat),
    (d.setMembership epoch.toNat dev.val tsrc).epoch = epoch.toNat ∧ (d.setMembership epoch.toNat dev.val tsrc).devId = dev.val ∧
    ∀ i < 1024, (d.setMembership epoch.toNat dev.val tsrc).word .rFAB_ROUTE [i] = d.word .rFAB_RSTAGE [i]) ∧
  (∀ h (epoch : BitVec 32) (dev tsrc : BitVec 16), Answers (.resetAll h epoch dev tsrc) 0x24 h
    (fun d => epoch.toNat = d.epoch) .ok (fun _ => 0) fun d => d.startReset) ∧
  (∀ h (epoch : BitVec 32) (dev tsrc : BitVec 16), Answers (.resetAll h epoch dev tsrc) 0x24 h
    (fun d => epoch.toNat ≠ d.epoch) .badParam (fun _ => 0) id) ∧
  (∀ (s : State) k, s.dev.fab.arrived.find? (fun k => k.type = 4) = some k →
    (k.epoch = s.dev.epoch → s.dev.resetQuiet = false →
      Completes .reset s fun d => d.fab.resetting = true ∧ d.fab.lastReset = some s.dev.sched.ref ∧ d.run.inRun = false ∧
        (s.dev.run.inRun = true → d.sched.streams = [] ∧ d.sched.board = [])) ∧
    (k.epoch ≠ s.dev.epoch ∨ s.dev.resetQuiet = true →
      Runs .reset s { s.dev with fab := { s.dev.fab with arrived := s.dev.fab.arrived.erase k } })) ∧
  (∀ s : State, s.dev.fab.resetting = true → Completes .localResetComplete s fun d =>
    d.run = .ready ∧ d.sched.image = none ∧ d.fab.resetting = false)) ∧
  -- Time follows upstream
  ((∀ (p : Fin 24) (rx tx : BitVec 80) (h : Byte) (s : State) t1 t4, s.dev.up = true → s.dev.linkUp p.val = true →
    let x := s.dev.fport p.val
    x.timeOut = some t1 → x.timeIn = some t4 → s.dev.follows = true → s.dev.getF fFAB_TIME_STAT_UPPORT [] = p.val →
    Completes (.time p rx tx h) s fun d =>
      let n := (h.toNat + 1) % 256
      let e := exchange t1 rx.toNat tx.toNat t4 x.asym
      let good := if e.1.natAbs ≤ 2500 * (2 + n) then s.dev.fab.good + 1 else 0
      d.getF fFAB_TIME_STAT_HOPS [] = n ∧ d.getF fFAB_TIME_STAT_BOUND [] = 5 * (2 + n) ∧ d.mem = s.dev.mem ∧
      d.word .rFAB_TIME_OFS [] = BitVec.ofInt 32 (max 0 (min 4294967295 e.2)) ++ BitVec.ofInt 32 (saturate32 e.1) ∧
      d.fab.good = good ∧ d.fab.corrected = true ∧
      d.timeState = if good ≥ 3 then 2 else if good = 0 ∨ s.dev.timeState ≠ 2 then 1 else 2) ∧
  (∀ (p : Fin 24) (rx tx : BitVec 80) (h : Byte) (s : State), s.dev.up = true → s.dev.linkUp p.val = true →
    let x := s.dev.fport p.val
    (x.timeOut.isSome = true → x.timeIn.isSome = true →
      (s.dev.follows = false ∨ s.dev.getF fFAB_TIME_STAT_UPPORT [] ≠ p.val) → Completes (.time p rx tx h) s fun d =>
        d.sched = s.dev.sched ∧ d.fab = (s.dev.setFport p.val { x with timeIn := none }).fab ∧ d.timeState = s.dev.timeState ∧
        d.mem = s.dev.mem) ∧
    (x.timeOut = none ∨ x.timeIn = none → Runs (.time p rx tx h) s s.dev)) ∧
  (∀ s : State, s.dev.holdoverDue = true → Completes .timeHoldover s fun d => d.timeState = 3 ∧ d.fab.slew = s.dev.fab.slew ∧
    d.fab.rate = s.dev.fab.slew.sign ∧ d.sched = s.dev.sched ∧ d.mem = s.dev.mem))

/-! ## Memory -/

/-- The memory of the part keeps its canonical form (Host.Cell pairs with rising addresses, none equal to what an unlisted address
reads as) in every step, whatever command waits, from every state in which it has that form. -/
def Obligations.MemoryStaysCanonical : Prop :=
  ∀ s t : State, Memory.wf s.dev.mem = true → step s = .next t → Memory.wf t.dev.mem = true
end

