-- ==== Sys2Proof/Laws/State.lean ====
section
/-! SUPPORT. The state under its updates: one lemma per update and per field of the device it leaves alone, so that no proof
unfolds a record update. -/
namespace Sys2Proof.Machine

variable (d : Dev)

/-! ### setWord -/
@[simp] theorem Dev.setWord_mem (r : RegName) (i : List Nat) (w : Word) : (d.setWord r i w).mem = d.mem := rfl
@[simp] theorem Dev.setWord_run (r : RegName) (i : List Nat) (w : Word) : (d.setWord r i w).run = d.run := rfl
@[simp] theorem Dev.setWord_tripped (r : RegName) (i : List Nat) (w : Word) : (d.setWord r i w).tripped = d.tripped := rfl
@[simp] theorem Dev.setWord_claim (r : RegName) (i : List Nat) (w : Word) : (d.setWord r i w).claim = d.claim := rfl
@[simp] theorem Dev.setWord_long (r : RegName) (i : List Nat) (w : Word) : (d.setWord r i w).long = d.long := rfl
@[simp] theorem Dev.setWord_halts (r : RegName) (i : List Nat) (w : Word) : (d.setWord r i w).halts = d.halts := rfl
@[simp] theorem Dev.setWord_snapReq (r : RegName) (i : List Nat) (w : Word) : (d.setWord r i w).snapReq = d.snapReq := rfl
@[simp] theorem Dev.setWord_cut (r : RegName) (i : List Nat) (w : Word) : (d.setWord r i w).cut = d.cut := rfl
@[simp] theorem Dev.setWord_lastFault (r : RegName) (i : List Nat) (w : Word) : (d.setWord r i w).lastFault = d.lastFault := rfl
@[simp] theorem Dev.setWord_boundsSeen (r : RegName) (i : List Nat) (w : Word) : (d.setWord r i w).boundsSeen = d.boundsSeen := rfl
@[simp] theorem Dev.setWord_cfg (r : RegName) (i : List Nat) (w : Word) : (d.setWord r i w).cfg = d.cfg := rfl
@[simp] theorem Dev.setWord_portA (r : RegName) (i : List Nat) (w : Word) : (d.setWord r i w).portA = d.portA := rfl
@[simp] theorem Dev.setWord_portB (r : RegName) (i : List Nat) (w : Word) : (d.setWord r i w).portB = d.portB := rfl
@[simp] theorem Dev.setWord_sideband (r : RegName) (i : List Nat) (w : Word) : (d.setWord r i w).sideband = d.sideband := rfl
@[simp] theorem Dev.setWord_flash (r : RegName) (i : List Nat) (w : Word) : (d.setWord r i w).flash = d.flash := rfl
@[simp] theorem Dev.setWord_boot (r : RegName) (i : List Nat) (w : Word) : (d.setWord r i w).boot = d.boot := rfl
@[simp] theorem Dev.setWord_recorder (r : RegName) (i : List Nat) (w : Word) : (d.setWord r i w).recorder = d.recorder := rfl
@[simp] theorem Dev.setWord_monLast (r : RegName) (i : List Nat) (w : Word) : (d.setWord r i w).monLast = d.monLast := rfl
@[simp] theorem Dev.setWord_sched (r : RegName) (i : List Nat) (w : Word) : (d.setWord r i w).sched = d.sched := rfl
@[simp] theorem Dev.setWord_posSMap (r : RegName) (i : List Nat) (w : Word) : (d.setWord r i w).posSMap = d.posSMap := rfl
@[simp] theorem Dev.setWord_xfer (r : RegName) (i : List Nat) (w : Word) : (d.setWord r i w).xfer = d.xfer := rfl
@[simp] theorem Dev.setWord_atsA (r : RegName) (i : List Nat) (w : Word) : (d.setWord r i w).atsA = d.atsA := rfl
@[simp] theorem Dev.setWord_atsB (r : RegName) (i : List Nat) (w : Word) : (d.setWord r i w).atsB = d.atsB := rfl
@[simp] theorem Dev.setWord_inject (r : RegName) (i : List Nat) (w : Word) : (d.setWord r i w).inject = d.inject := rfl
@[simp] theorem Dev.setWord_landed (r : RegName) (i : List Nat) (w : Word) : (d.setWord r i w).landed = d.landed := rfl
@[simp] theorem Dev.setWord_gradPort (r : RegName) (i : List Nat) (w : Word) : (d.setWord r i w).gradPort = d.gradPort := rfl
@[simp] theorem Dev.setWord_mEng (r : RegName) (i : List Nat) (w : Word) : (d.setWord r i w).mEng = d.mEng := rfl
@[simp] theorem Dev.setWord_vEng (r : RegName) (i : List Nat) (w : Word) : (d.setWord r i w).vEng = d.vEng := rfl
@[simp] theorem Dev.setWord_sEng (r : RegName) (i : List Nat) (w : Word) : (d.setWord r i w).sEng = d.sEng := rfl
@[simp] theorem Dev.setWord_ring (r : RegName) (i : List Nat) (w : Word) : (d.setWord r i w).ring = d.ring := rfl
@[simp] theorem Dev.setWord_net (r : RegName) (i : List Nat) (w : Word) : (d.setWord r i w).net = d.net := rfl
@[simp] theorem Dev.setWord_nodes (r : RegName) (i : List Nat) (w : Word) : (d.setWord r i w).nodes = d.nodes := rfl
@[simp] theorem Dev.setWord_dyn (r : RegName) (i : List Nat) (w : Word) : (d.setWord r i w).dyn = d.dyn := rfl
@[simp] theorem Dev.setWord_netPorts (r : RegName) (i : List Nat) (w : Word) : (d.setWord r i w).netPorts = d.netPorts := rfl
@[simp] theorem Dev.setWord_nextReq (r : RegName) (i : List Nat) (w : Word) : (d.setWord r i w).nextReq = d.nextReq := rfl
@[simp] theorem Dev.setWord_tags (r : RegName) (i : List Nat) (w : Word) : (d.setWord r i w).tags = d.tags := rfl
@[simp] theorem Dev.setWord_upd (r : RegName) (i : List Nat) (w : Word) : (d.setWord r i w).upd = d.upd := rfl
@[simp] theorem Dev.setWord_updSent (r : RegName) (i : List Nat) (w : Word) : (d.setWord r i w).updSent = d.updSent := rfl
@[simp] theorem Dev.setWord_scrub (r : RegName) (i : List Nat) (w : Word) : (d.setWord r i w).scrub = d.scrub := rfl
@[simp] theorem Dev.setWord_banks (r : RegName) (i : List Nat) (w : Word) : (d.setWord r i w).banks = d.banks := rfl
@[simp] theorem Dev.setWord_errs (r : RegName) (i : List Nat) (w : Word) : (d.setWord r i w).errs = d.errs := rfl
@[simp] theorem Dev.setWord_ueSeen (r : RegName) (i : List Nat) (w : Word) : (d.setWord r i w).ueSeen = d.ueSeen := rfl
@[simp] theorem Dev.setWord_retraining (r : RegName) (i : List Nat) (w : Word) : (d.setWord r i w).retraining = d.retraining := rfl
@[simp] theorem Dev.setWord_wide8 (r : RegName) (i : List Nat) (w : Word) : (d.setWord r i w).wide8 = d.wide8 := rfl
@[simp] theorem Dev.setWord_clocks (r : RegName) (i : List Nat) (w : Word) : (d.setWord r i w).clocks = d.clocks := rfl
@[simp] theorem Dev.setWord_fab (r : RegName) (i : List Nat) (w : Word) : (d.setWord r i w).fab = d.fab := rfl
@[simp] theorem Dev.setWord_snaps (r : RegName) (i : List Nat) (w : Word) : (d.setWord r i w).snaps = d.snaps := rfl
@[simp] theorem Dev.setWord_nonce (r : RegName) (i : List Nat) (w : Word) : (d.setWord r i w).nonce = d.nonce := rfl
@[simp] theorem Dev.setWord_gen (r : RegName) (i : List Nat) (w : Word) : (d.setWord r i w).gen = d.gen := rfl
@[simp] theorem Dev.setWord_out (r : RegName) (i : List Nat) (w : Word) : (d.setWord r i w).out = d.out := rfl

/-! ### setF -/
@[simp] theorem Dev.setF_mem (f : Field) (i : List Nat) (v : Nat) : (d.setF f i v).mem = d.mem := rfl
@[simp] theorem Dev.setF_run (f : Field) (i : List Nat) (v : Nat) : (d.setF f i v).run = d.run := rfl
@[simp] theorem Dev.setF_tripped (f : Field) (i : List Nat) (v : Nat) : (d.setF f i v).tripped = d.tripped := rfl
@[simp] theorem Dev.setF_claim (f : Field) (i : List Nat) (v : Nat) : (d.setF f i v).claim = d.claim := rfl
@[simp] theorem Dev.setF_long (f : Field) (i : List Nat) (v : Nat) : (d.setF f i v).long = d.long := rfl
@[simp] theorem Dev.setF_halts (f : Field) (i : List Nat) (v : Nat) : (d.setF f i v).halts = d.halts := rfl
@[simp] theorem Dev.setF_snapReq (f : Field) (i : List Nat) (v : Nat) : (d.setF f i v).snapReq = d.snapReq := rfl
@[simp] theorem Dev.setF_cut (f : Field) (i : List Nat) (v : Nat) : (d.setF f i v).cut = d.cut := rfl
@[simp] theorem Dev.setF_lastFault (f : Field) (i : List Nat) (v : Nat) : (d.setF f i v).lastFault = d.lastFault := rfl
@[simp] theorem Dev.setF_boundsSeen (f : Field) (i : List Nat) (v : Nat) : (d.setF f i v).boundsSeen = d.boundsSeen := rfl
@[simp] theorem Dev.setF_cfg (f : Field) (i : List Nat) (v : Nat) : (d.setF f i v).cfg = d.cfg := rfl
@[simp] theorem Dev.setF_portA (f : Field) (i : List Nat) (v : Nat) : (d.setF f i v).portA = d.portA := rfl
@[simp] theorem Dev.setF_portB (f : Field) (i : List Nat) (v : Nat) : (d.setF f i v).portB = d.portB := rfl
@[simp] theorem Dev.setF_sideband (f : Field) (i : List Nat) (v : Nat) : (d.setF f i v).sideband = d.sideband := rfl
@[simp] theorem Dev.setF_flash (f : Field) (i : List Nat) (v : Nat) : (d.setF f i v).flash = d.flash := rfl
@[simp] theorem Dev.setF_boot (f : Field) (i : List Nat) (v : Nat) : (d.setF f i v).boot = d.boot := rfl
@[simp] theorem Dev.setF_recorder (f : Field) (i : List Nat) (v : Nat) : (d.setF f i v).recorder = d.recorder := rfl
@[simp] theorem Dev.setF_monLast (f : Field) (i : List Nat) (v : Nat) : (d.setF f i v).monLast = d.monLast := rfl
@[simp] theorem Dev.setF_sched (f : Field) (i : List Nat) (v : Nat) : (d.setF f i v).sched = d.sched := rfl
@[simp] theorem Dev.setF_posSMap (f : Field) (i : List Nat) (v : Nat) : (d.setF f i v).posSMap = d.posSMap := rfl
@[simp] theorem Dev.setF_xfer (f : Field) (i : List Nat) (v : Nat) : (d.setF f i v).xfer = d.xfer := rfl
@[simp] theorem Dev.setF_atsA (f : Field) (i : List Nat) (v : Nat) : (d.setF f i v).atsA = d.atsA := rfl
@[simp] theorem Dev.setF_atsB (f : Field) (i : List Nat) (v : Nat) : (d.setF f i v).atsB = d.atsB := rfl
@[simp] theorem Dev.setF_inject (f : Field) (i : List Nat) (v : Nat) : (d.setF f i v).inject = d.inject := rfl
@[simp] theorem Dev.setF_landed (f : Field) (i : List Nat) (v : Nat) : (d.setF f i v).landed = d.landed := rfl
@[simp] theorem Dev.setF_gradPort (f : Field) (i : List Nat) (v : Nat) : (d.setF f i v).gradPort = d.gradPort := rfl
@[simp] theorem Dev.setF_mEng (f : Field) (i : List Nat) (v : Nat) : (d.setF f i v).mEng = d.mEng := rfl
@[simp] theorem Dev.setF_vEng (f : Field) (i : List Nat) (v : Nat) : (d.setF f i v).vEng = d.vEng := rfl
@[simp] theorem Dev.setF_sEng (f : Field) (i : List Nat) (v : Nat) : (d.setF f i v).sEng = d.sEng := rfl
@[simp] theorem Dev.setF_ring (f : Field) (i : List Nat) (v : Nat) : (d.setF f i v).ring = d.ring := rfl
@[simp] theorem Dev.setF_net (f : Field) (i : List Nat) (v : Nat) : (d.setF f i v).net = d.net := rfl
@[simp] theorem Dev.setF_nodes (f : Field) (i : List Nat) (v : Nat) : (d.setF f i v).nodes = d.nodes := rfl
@[simp] theorem Dev.setF_dyn (f : Field) (i : List Nat) (v : Nat) : (d.setF f i v).dyn = d.dyn := rfl
@[simp] theorem Dev.setF_netPorts (f : Field) (i : List Nat) (v : Nat) : (d.setF f i v).netPorts = d.netPorts := rfl
@[simp] theorem Dev.setF_nextReq (f : Field) (i : List Nat) (v : Nat) : (d.setF f i v).nextReq = d.nextReq := rfl
@[simp] theorem Dev.setF_tags (f : Field) (i : List Nat) (v : Nat) : (d.setF f i v).tags = d.tags := rfl
@[simp] theorem Dev.setF_upd (f : Field) (i : List Nat) (v : Nat) : (d.setF f i v).upd = d.upd := rfl
@[simp] theorem Dev.setF_updSent (f : Field) (i : List Nat) (v : Nat) : (d.setF f i v).updSent = d.updSent := rfl
@[simp] theorem Dev.setF_scrub (f : Field) (i : List Nat) (v : Nat) : (d.setF f i v).scrub = d.scrub := rfl
@[simp] theorem Dev.setF_banks (f : Field) (i : List Nat) (v : Nat) : (d.setF f i v).banks = d.banks := rfl
@[simp] theorem Dev.setF_errs (f : Field) (i : List Nat) (v : Nat) : (d.setF f i v).errs = d.errs := rfl
@[simp] theorem Dev.setF_ueSeen (f : Field) (i : List Nat) (v : Nat) : (d.setF f i v).ueSeen = d.ueSeen := rfl
@[simp] theorem Dev.setF_retraining (f : Field) (i : List Nat) (v : Nat) : (d.setF f i v).retraining = d.retraining := rfl
@[simp] theorem Dev.setF_wide8 (f : Field) (i : List Nat) (v : Nat) : (d.setF f i v).wide8 = d.wide8 := rfl
@[simp] theorem Dev.setF_clocks (f : Field) (i : List Nat) (v : Nat) : (d.setF f i v).clocks = d.clocks := rfl
@[simp] theorem Dev.setF_fab (f : Field) (i : List Nat) (v : Nat) : (d.setF f i v).fab = d.fab := rfl
@[simp] theorem Dev.setF_snaps (f : Field) (i : List Nat) (v : Nat) : (d.setF f i v).snaps = d.snaps := rfl
@[simp] theorem Dev.setF_nonce (f : Field) (i : List Nat) (v : Nat) : (d.setF f i v).nonce = d.nonce := rfl
@[simp] theorem Dev.setF_gen (f : Field) (i : List Nat) (v : Nat) : (d.setF f i v).gen = d.gen := rfl
@[simp] theorem Dev.setF_out (f : Field) (i : List Nat) (v : Nat) : (d.setF f i v).out = d.out := rfl

/-! ### emit -/
@[simp] theorem Dev.emit_regs (o : Out) : (d.emit o).regs = d.regs := rfl
@[simp] theorem Dev.emit_mem (o : Out) : (d.emit o).mem = d.mem := rfl
@[simp] theorem Dev.emit_run (o : Out) : (d.emit o).run = d.run := rfl
@[simp] theorem Dev.emit_tripped (o : Out) : (d.emit o).tripped = d.tripped := rfl
@[simp] theorem Dev.emit_claim (o : Out) : (d.emit o).claim = d.claim := rfl
@[simp] theorem Dev.emit_long (o : Out) : (d.emit o).long = d.long := rfl
@[simp] theorem Dev.emit_halts (o : Out) : (d.emit o).halts = d.halts := rfl
@[simp] theorem Dev.emit_snapReq (o : Out) : (d.emit o).snapReq = d.snapReq := rfl
@[simp] theorem Dev.emit_cut (o : Out) : (d.emit o).cut = d.cut := rfl
@[simp] theorem Dev.emit_lastFault (o : Out) : (d.emit o).lastFault = d.lastFault := rfl
@[simp] theorem Dev.emit_boundsSeen (o : Out) : (d.emit o).boundsSeen = d.boundsSeen := rfl
@[simp] theorem Dev.emit_cfg (o : Out) : (d.emit o).cfg = d.cfg := rfl
@[simp] theorem Dev.emit_portA (o : Out) : (d.emit o).portA = d.portA := rfl
@[simp] theorem Dev.emit_portB (o : Out) : (d.emit o).portB = d.portB := rfl
@[simp] theorem Dev.emit_sideband (o : Out) : (d.emit o).sideband = d.sideband := rfl
@[simp] theorem Dev.emit_flash (o : Out) : (d.emit o).flash = d.flash := rfl
@[simp] theorem Dev.emit_boot (o : Out) : (d.emit o).boot = d.boot := rfl
@[simp] theorem Dev.emit_recorder (o : Out) : (d.emit o).recorder = d.recorder := rfl
@[simp] theorem Dev.emit_monLast (o : Out) : (d.emit o).monLast = d.monLast := rfl
@[simp] theorem Dev.emit_sched (o : Out) : (d.emit o).sched = d.sched := rfl
@[simp] theorem Dev.emit_posSMap (o : Out) : (d.emit o).posSMap = d.posSMap := rfl
@[simp] theorem Dev.emit_xfer (o : Out) : (d.emit o).xfer = d.xfer := rfl
@[simp] theorem Dev.emit_atsA (o : Out) : (d.emit o).atsA = d.atsA := rfl
@[simp] theorem Dev.emit_atsB (o : Out) : (d.emit o).atsB = d.atsB := rfl
@[simp] theorem Dev.emit_inject (o : Out) : (d.emit o).inject = d.inject := rfl
@[simp] theorem Dev.emit_landed (o : Out) : (d.emit o).landed = d.landed := rfl
@[simp] theorem Dev.emit_gradPort (o : Out) : (d.emit o).gradPort = d.gradPort := rfl
@[simp] theorem Dev.emit_mEng (o : Out) : (d.emit o).mEng = d.mEng := rfl
@[simp] theorem Dev.emit_vEng (o : Out) : (d.emit o).vEng = d.vEng := rfl
@[simp] theorem Dev.emit_sEng (o : Out) : (d.emit o).sEng = d.sEng := rfl
@[simp] theorem Dev.emit_ring (o : Out) : (d.emit o).ring = d.ring := rfl
@[simp] theorem Dev.emit_net (o : Out) : (d.emit o).net = d.net := rfl
@[simp] theorem Dev.emit_nodes (o : Out) : (d.emit o).nodes = d.nodes := rfl
@[simp] theorem Dev.emit_dyn (o : Out) : (d.emit o).dyn = d.dyn := rfl
@[simp] theorem Dev.emit_netPorts (o : Out) : (d.emit o).netPorts = d.netPorts := rfl
@[simp] theorem Dev.emit_nextReq (o : Out) : (d.emit o).nextReq = d.nextReq := rfl
@[simp] theorem Dev.emit_tags (o : Out) : (d.emit o).tags = d.tags := rfl
@[simp] theorem Dev.emit_upd (o : Out) : (d.emit o).upd = d.upd := rfl
@[simp] theorem Dev.emit_updSent (o : Out) : (d.emit o).updSent = d.updSent := rfl
@[simp] theorem Dev.emit_scrub (o : Out) : (d.emit o).scrub = d.scrub := rfl
@[simp] theorem Dev.emit_banks (o : Out) : (d.emit o).banks = d.banks := rfl
@[simp] theorem Dev.emit_errs (o : Out) : (d.emit o).errs = d.errs := rfl
@[simp] theorem Dev.emit_ueSeen (o : Out) : (d.emit o).ueSeen = d.ueSeen := rfl
@[simp] theorem Dev.emit_retraining (o : Out) : (d.emit o).retraining = d.retraining := rfl
@[simp] theorem Dev.emit_wide8 (o : Out) : (d.emit o).wide8 = d.wide8 := rfl
@[simp] theorem Dev.emit_clocks (o : Out) : (d.emit o).clocks = d.clocks := rfl
@[simp] theorem Dev.emit_fab (o : Out) : (d.emit o).fab = d.fab := rfl
@[simp] theorem Dev.emit_snaps (o : Out) : (d.emit o).snaps = d.snaps := rfl
@[simp] theorem Dev.emit_nonce (o : Out) : (d.emit o).nonce = d.nonce := rfl
@[simp] theorem Dev.emit_gen (o : Out) : (d.emit o).gen = d.gen := rfl

/-! ### withSched -/
@[simp] theorem Dev.withSched_regs (f : Sched → Sched) : (d.withSched f).regs = d.regs := rfl
@[simp] theorem Dev.withSched_mem (f : Sched → Sched) : (d.withSched f).mem = d.mem := rfl
@[simp] theorem Dev.withSched_run (f : Sched → Sched) : (d.withSched f).run = d.run := rfl
@[simp] theorem Dev.withSched_tripped (f : Sched → Sched) : (d.withSched f).tripped = d.tripped := rfl
@[simp] theorem Dev.withSched_claim (f : Sched → Sched) : (d.withSched f).claim = d.claim := rfl
@[simp] theorem Dev.withSched_long (f : Sched → Sched) : (d.withSched f).long = d.long := rfl
@[simp] theorem Dev.withSched_halts (f : Sched → Sched) : (d.withSched f).halts = d.halts := rfl
@[simp] theorem Dev.withSched_snapReq (f : Sched → Sched) : (d.withSched f).snapReq = d.snapReq := rfl
@[simp] theorem Dev.withSched_cut (f : Sched → Sched) : (d.withSched f).cut = d.cut := rfl
@[simp] theorem Dev.withSched_lastFault (f : Sched → Sched) : (d.withSched f).lastFault = d.lastFault := rfl
@[simp] theorem Dev.withSched_boundsSeen (f : Sched → Sched) : (d.withSched f).boundsSeen = d.boundsSeen := rfl
@[simp] theorem Dev.withSched_cfg (f : Sched → Sched) : (d.withSched f).cfg = d.cfg := rfl
@[simp] theorem Dev.withSched_portA (f : Sched → Sched) : (d.withSched f).portA = d.portA := rfl
@[simp] theorem Dev.withSched_portB (f : Sched → Sched) : (d.withSched f).portB = d.portB := rfl
@[simp] theorem Dev.withSched_sideband (f : Sched → Sched) : (d.withSched f).sideband = d.sideband := rfl
@[simp] theorem Dev.withSched_flash (f : Sched → Sched) : (d.withSched f).flash = d.flash := rfl
@[simp] theorem Dev.withSched_boot (f : Sched → Sched) : (d.withSched f).boot = d.boot := rfl
@[simp] theorem Dev.withSched_recorder (f : Sched → Sched) : (d.withSched f).recorder = d.recorder := rfl
@[simp] theorem Dev.withSched_monLast (f : Sched → Sched) : (d.withSched f).monLast = d.monLast := rfl
@[simp] theorem Dev.withSched_posSMap (f : Sched → Sched) : (d.withSched f).posSMap = d.posSMap := rfl
@[simp] theorem Dev.withSched_xfer (f : Sched → Sched) : (d.withSched f).xfer = d.xfer := rfl
@[simp] theorem Dev.withSched_atsA (f : Sched → Sched) : (d.withSched f).atsA = d.atsA := rfl
@[simp] theorem Dev.withSched_atsB (f : Sched → Sched) : (d.withSched f).atsB = d.atsB := rfl
@[simp] theorem Dev.withSched_inject (f : Sched → Sched) : (d.withSched f).inject = d.inject := rfl
@[simp] theorem Dev.withSched_landed (f : Sched → Sched) : (d.withSched f).landed = d.landed := rfl
@[simp] theorem Dev.withSched_gradPort (f : Sched → Sched) : (d.withSched f).gradPort = d.gradPort := rfl
@[simp] theorem Dev.withSched_mEng (f : Sched → Sched) : (d.withSched f).mEng = d.mEng := rfl
@[simp] theorem Dev.withSched_vEng (f : Sched → Sched) : (d.withSched f).vEng = d.vEng := rfl
@[simp] theorem Dev.withSched_sEng (f : Sched → Sched) : (d.withSched f).sEng = d.sEng := rfl
@[simp] theorem Dev.withSched_ring (f : Sched → Sched) : (d.withSched f).ring = d.ring := rfl
@[simp] theorem Dev.withSched_net (f : Sched → Sched) : (d.withSched f).net = d.net := rfl
@[simp] theorem Dev.withSched_nodes (f : Sched → Sched) : (d.withSched f).nodes = d.nodes := rfl
@[simp] theorem Dev.withSched_dyn (f : Sched → Sched) : (d.withSched f).dyn = d.dyn := rfl
@[simp] theorem Dev.withSched_netPorts (f : Sched → Sched) : (d.withSched f).netPorts = d.netPorts := rfl
@[simp] theorem Dev.withSched_nextReq (f : Sched → Sched) : (d.withSched f).nextReq = d.nextReq := rfl
@[simp] theorem Dev.withSched_tags (f : Sched → Sched) : (d.withSched f).tags = d.tags := rfl
@[simp] theorem Dev.withSched_upd (f : Sched → Sched) : (d.withSched f).upd = d.upd := rfl
@[simp] theorem Dev.withSched_updSent (f : Sched → Sched) : (d.withSched f).updSent = d.updSent := rfl
@[simp] theorem Dev.withSched_scrub (f : Sched → Sched) : (d.withSched f).scrub = d.scrub := rfl
@[simp] theorem Dev.withSched_banks (f : Sched → Sched) : (d.withSched f).banks = d.banks := rfl
@[simp] theorem Dev.withSched_errs (f : Sched → Sched) : (d.withSched f).errs = d.errs := rfl
@[simp] theorem Dev.withSched_ueSeen (f : Sched → Sched) : (d.withSched f).ueSeen = d.ueSeen := rfl
@[simp] theorem Dev.withSched_retraining (f : Sched → Sched) : (d.withSched f).retraining = d.retraining := rfl
@[simp] theorem Dev.withSched_wide8 (f : Sched → Sched) : (d.withSched f).wide8 = d.wide8 := rfl
@[simp] theorem Dev.withSched_clocks (f : Sched → Sched) : (d.withSched f).clocks = d.clocks := rfl
@[simp] theorem Dev.withSched_fab (f : Sched → Sched) : (d.withSched f).fab = d.fab := rfl
@[simp] theorem Dev.withSched_snaps (f : Sched → Sched) : (d.withSched f).snaps = d.snaps := rfl
@[simp] theorem Dev.withSched_nonce (f : Sched → Sched) : (d.withSched f).nonce = d.nonce := rfl
@[simp] theorem Dev.withSched_gen (f : Sched → Sched) : (d.withSched f).gen = d.gen := rfl
@[simp] theorem Dev.withSched_out (f : Sched → Sched) : (d.withSched f).out = d.out := rfl

/-! ### withHold -/
@[simp] theorem Dev.withHold_regs (f : Hold → Hold) : (d.withHold f).regs = d.regs := rfl
@[simp] theorem Dev.withHold_mem (f : Hold → Hold) : (d.withHold f).mem = d.mem := rfl
@[simp] theorem Dev.withHold_run (f : Hold → Hold) : (d.withHold f).run = d.run := rfl
@[simp] theorem Dev.withHold_tripped (f : Hold → Hold) : (d.withHold f).tripped = d.tripped := rfl
@[simp] theorem Dev.withHold_claim (f : Hold → Hold) : (d.withHold f).claim = d.claim := rfl
@[simp] theorem Dev.withHold_long (f : Hold → Hold) : (d.withHold f).long = d.long := rfl
@[simp] theorem Dev.withHold_halts (f : Hold → Hold) : (d.withHold f).halts = d.halts := rfl
@[simp] theorem Dev.withHold_snapReq (f : Hold → Hold) : (d.withHold f).snapReq = d.snapReq := rfl
@[simp] theorem Dev.withHold_cut (f : Hold → Hold) : (d.withHold f).cut = d.cut := rfl
@[simp] theorem Dev.withHold_lastFault (f : Hold → Hold) : (d.withHold f).lastFault = d.lastFault := rfl
@[simp] theorem Dev.withHold_boundsSeen (f : Hold → Hold) : (d.withHold f).boundsSeen = d.boundsSeen := rfl
@[simp] theorem Dev.withHold_cfg (f : Hold → Hold) : (d.withHold f).cfg = d.cfg := rfl
@[simp] theorem Dev.withHold_portA (f : Hold → Hold) : (d.withHold f).portA = d.portA := rfl
@[simp] theorem Dev.withHold_portB (f : Hold → Hold) : (d.withHold f).portB = d.portB := rfl
@[simp] theorem Dev.withHold_sideband (f : Hold → Hold) : (d.withHold f).sideband = d.sideband := rfl
@[simp] theorem Dev.withHold_flash (f : Hold → Hold) : (d.withHold f).flash = d.flash := rfl
@[simp] theorem Dev.withHold_boot (f : Hold → Hold) : (d.withHold f).boot = d.boot := rfl
@[simp] theorem Dev.withHold_recorder (f : Hold → Hold) : (d.withHold f).recorder = d.recorder := rfl
@[simp] theorem Dev.withHold_monLast (f : Hold → Hold) : (d.withHold f).monLast = d.monLast := rfl
@[simp] theorem Dev.withHold_posSMap (f : Hold → Hold) : (d.withHold f).posSMap = d.posSMap := rfl
@[simp] theorem Dev.withHold_xfer (f : Hold → Hold) : (d.withHold f).xfer = d.xfer := rfl
@[simp] theorem Dev.withHold_atsA (f : Hold → Hold) : (d.withHold f).atsA = d.atsA := rfl
@[simp] theorem Dev.withHold_atsB (f : Hold → Hold) : (d.withHold f).atsB = d.atsB := rfl
@[simp] theorem Dev.withHold_inject (f : Hold → Hold) : (d.withHold f).inject = d.inject := rfl
@[simp] theorem Dev.withHold_landed (f : Hold → Hold) : (d.withHold f).landed = d.landed := rfl
@[simp] theorem Dev.withHold_gradPort (f : Hold → Hold) : (d.withHold f).gradPort = d.gradPort := rfl
@[simp] theorem Dev.withHold_mEng (f : Hold → Hold) : (d.withHold f).mEng = d.mEng := rfl
@[simp] theorem Dev.withHold_vEng (f : Hold → Hold) : (d.withHold f).vEng = d.vEng := rfl
@[simp] theorem Dev.withHold_sEng (f : Hold → Hold) : (d.withHold f).sEng = d.sEng := rfl
@[simp] theorem Dev.withHold_ring (f : Hold → Hold) : (d.withHold f).ring = d.ring := rfl
@[simp] theorem Dev.withHold_net (f : Hold → Hold) : (d.withHold f).net = d.net := rfl
@[simp] theorem Dev.withHold_nodes (f : Hold → Hold) : (d.withHold f).nodes = d.nodes := rfl
@[simp] theorem Dev.withHold_dyn (f : Hold → Hold) : (d.withHold f).dyn = d.dyn := rfl
@[simp] theorem Dev.withHold_netPorts (f : Hold → Hold) : (d.withHold f).netPorts = d.netPorts := rfl
@[simp] theorem Dev.withHold_nextReq (f : Hold → Hold) : (d.withHold f).nextReq = d.nextReq := rfl
@[simp] theorem Dev.withHold_tags (f : Hold → Hold) : (d.withHold f).tags = d.tags := rfl
@[simp] theorem Dev.withHold_upd (f : Hold → Hold) : (d.withHold f).upd = d.upd := rfl
@[simp] theorem Dev.withHold_updSent (f : Hold → Hold) : (d.withHold f).updSent = d.updSent := rfl
@[simp] theorem Dev.withHold_scrub (f : Hold → Hold) : (d.withHold f).scrub = d.scrub := rfl
@[simp] theorem Dev.withHold_banks (f : Hold → Hold) : (d.withHold f).banks = d.banks := rfl
@[simp] theorem Dev.withHold_errs (f : Hold → Hold) : (d.withHold f).errs = d.errs := rfl
@[simp] theorem Dev.withHold_ueSeen (f : Hold → Hold) : (d.withHold f).ueSeen = d.ueSeen := rfl
@[simp] theorem Dev.withHold_retraining (f : Hold → Hold) : (d.withHold f).retraining = d.retraining := rfl
@[simp] theorem Dev.withHold_wide8 (f : Hold → Hold) : (d.withHold f).wide8 = d.wide8 := rfl
@[simp] theorem Dev.withHold_clocks (f : Hold → Hold) : (d.withHold f).clocks = d.clocks := rfl
@[simp] theorem Dev.withHold_fab (f : Hold → Hold) : (d.withHold f).fab = d.fab := rfl
@[simp] theorem Dev.withHold_snaps (f : Hold → Hold) : (d.withHold f).snaps = d.snaps := rfl
@[simp] theorem Dev.withHold_nonce (f : Hold → Hold) : (d.withHold f).nonce = d.nonce := rfl
@[simp] theorem Dev.withHold_gen (f : Hold → Hold) : (d.withHold f).gen = d.gen := rfl
@[simp] theorem Dev.withHold_out (f : Hold → Hold) : (d.withHold f).out = d.out := rfl

/-! ### poke -/
@[simp] theorem Dev.poke_regs (a v : Nat) : (d.poke a v).regs = d.regs := rfl
@[simp] theorem Dev.poke_run (a v : Nat) : (d.poke a v).run = d.run := rfl
@[simp] theorem Dev.poke_tripped (a v : Nat) : (d.poke a v).tripped = d.tripped := rfl
@[simp] theorem Dev.poke_claim (a v : Nat) : (d.poke a v).claim = d.claim := rfl
@[simp] theorem Dev.poke_long (a v : Nat) : (d.poke a v).long = d.long := rfl
@[simp] theorem Dev.poke_halts (a v : Nat) : (d.poke a v).halts = d.halts := rfl
@[simp] theorem Dev.poke_snapReq (a v : Nat) : (d.poke a v).snapReq = d.snapReq := rfl
@[simp] theorem Dev.poke_cut (a v : Nat) : (d.poke a v).cut = d.cut := rfl
@[simp] theorem Dev.poke_lastFault (a v : Nat) : (d.poke a v).lastFault = d.lastFault := rfl
@[simp] theorem Dev.poke_boundsSeen (a v : Nat) : (d.poke a v).boundsSeen = d.boundsSeen := rfl
@[simp] theorem Dev.poke_cfg (a v : Nat) : (d.poke a v).cfg = d.cfg := rfl
@[simp] theorem Dev.poke_portA (a v : Nat) : (d.poke a v).portA = d.portA := rfl
@[simp] theorem Dev.poke_portB (a v : Nat) : (d.poke a v).portB = d.portB := rfl
@[simp] theorem Dev.poke_sideband (a v : Nat) : (d.poke a v).sideband = d.sideband := rfl
@[simp] theorem Dev.poke_flash (a v : Nat) : (d.poke a v).flash = d.flash := rfl
@[simp] theorem Dev.poke_boot (a v : Nat) : (d.poke a v).boot = d.boot := rfl
@[simp] theorem Dev.poke_recorder (a v : Nat) : (d.poke a v).recorder = d.recorder := rfl
@[simp] theorem Dev.poke_monLast (a v : Nat) : (d.poke a v).monLast = d.monLast := rfl
@[simp] theorem Dev.poke_sched (a v : Nat) : (d.poke a v).sched = d.sched := rfl
@[simp] theorem Dev.poke_posSMap (a v : Nat) : (d.poke a v).posSMap = d.posSMap := rfl
@[simp] theorem Dev.poke_xfer (a v : Nat) : (d.poke a v).xfer = d.xfer := rfl
@[simp] theorem Dev.poke_atsA (a v : Nat) : (d.poke a v).atsA = d.atsA := rfl
@[simp] theorem Dev.poke_atsB (a v : Nat) : (d.poke a v).atsB = d.atsB := rfl
@[simp] theorem Dev.poke_inject (a v : Nat) : (d.poke a v).inject = d.inject := rfl
@[simp] theorem Dev.poke_landed (a v : Nat) : (d.poke a v).landed = d.landed := rfl
@[simp] theorem Dev.poke_gradPort (a v : Nat) : (d.poke a v).gradPort = d.gradPort := rfl
@[simp] theorem Dev.poke_mEng (a v : Nat) : (d.poke a v).mEng = d.mEng := rfl
@[simp] theorem Dev.poke_vEng (a v : Nat) : (d.poke a v).vEng = d.vEng := rfl
@[simp] theorem Dev.poke_sEng (a v : Nat) : (d.poke a v).sEng = d.sEng := rfl
@[simp] theorem Dev.poke_ring (a v : Nat) : (d.poke a v).ring = d.ring := rfl
@[simp] theorem Dev.poke_net (a v : Nat) : (d.poke a v).net = d.net := rfl
@[simp] theorem Dev.poke_nodes (a v : Nat) : (d.poke a v).nodes = d.nodes := rfl
@[simp] theorem Dev.poke_dyn (a v : Nat) : (d.poke a v).dyn = d.dyn := rfl
@[simp] theorem Dev.poke_netPorts (a v : Nat) : (d.poke a v).netPorts = d.netPorts := rfl
@[simp] theorem Dev.poke_nextReq (a v : Nat) : (d.poke a v).nextReq = d.nextReq := rfl
@[simp] theorem Dev.poke_tags (a v : Nat) : (d.poke a v).tags = d.tags := rfl
@[simp] theorem Dev.poke_upd (a v : Nat) : (d.poke a v).upd = d.upd := rfl
@[simp] theorem Dev.poke_updSent (a v : Nat) : (d.poke a v).updSent = d.updSent := rfl
@[simp] theorem Dev.poke_scrub (a v : Nat) : (d.poke a v).scrub = d.scrub := rfl
@[simp] theorem Dev.poke_banks (a v : Nat) : (d.poke a v).banks = d.banks := rfl
@[simp] theorem Dev.poke_errs (a v : Nat) : (d.poke a v).errs = d.errs := rfl
@[simp] theorem Dev.poke_ueSeen (a v : Nat) : (d.poke a v).ueSeen = d.ueSeen := rfl
@[simp] theorem Dev.poke_retraining (a v : Nat) : (d.poke a v).retraining = d.retraining := rfl
@[simp] theorem Dev.poke_wide8 (a v : Nat) : (d.poke a v).wide8 = d.wide8 := rfl
@[simp] theorem Dev.poke_clocks (a v : Nat) : (d.poke a v).clocks = d.clocks := rfl
@[simp] theorem Dev.poke_fab (a v : Nat) : (d.poke a v).fab = d.fab := rfl
@[simp] theorem Dev.poke_snaps (a v : Nat) : (d.poke a v).snaps = d.snaps := rfl
@[simp] theorem Dev.poke_nonce (a v : Nat) : (d.poke a v).nonce = d.nonce := rfl
@[simp] theorem Dev.poke_gen (a v : Nat) : (d.poke a v).gen = d.gen := rfl
@[simp] theorem Dev.poke_out (a v : Nat) : (d.poke a v).out = d.out := rfl

/-! ### setM -/
@[simp] theorem Dev.setM_regs (e : MEng) (m : MState) : (d.setM e m).regs = d.regs := rfl
@[simp] theorem Dev.setM_mem (e : MEng) (m : MState) : (d.setM e m).mem = d.mem := rfl
@[simp] theorem Dev.setM_run (e : MEng) (m : MState) : (d.setM e m).run = d.run := rfl
@[simp] theorem Dev.setM_tripped (e : MEng) (m : MState) : (d.setM e m).tripped = d.tripped := rfl
@[simp] theorem Dev.setM_claim (e : MEng) (m : MState) : (d.setM e m).claim = d.claim := rfl
@[simp] theorem Dev.setM_long (e : MEng) (m : MState) : (d.setM e m).long = d.long := rfl
@[simp] theorem Dev.setM_halts (e : MEng) (m : MState) : (d.setM e m).halts = d.halts := rfl
@[simp] theorem Dev.setM_snapReq (e : MEng) (m : MState) : (d.setM e m).snapReq = d.snapReq := rfl
@[simp] theorem Dev.setM_cut (e : MEng) (m : MState) : (d.setM e m).cut = d.cut := rfl
@[simp] theorem Dev.setM_lastFault (e : MEng) (m : MState) : (d.setM e m).lastFault = d.lastFault := rfl
@[simp] theorem Dev.setM_boundsSeen (e : MEng) (m : MState) : (d.setM e m).boundsSeen = d.boundsSeen := rfl
@[simp] theorem Dev.setM_cfg (e : MEng) (m : MState) : (d.setM e m).cfg = d.cfg := rfl
@[simp] theorem Dev.setM_portA (e : MEng) (m : MState) : (d.setM e m).portA = d.portA := rfl
@[simp] theorem Dev.setM_portB (e : MEng) (m : MState) : (d.setM e m).portB = d.portB := rfl
@[simp] theorem Dev.setM_sideband (e : MEng) (m : MState) : (d.setM e m).sideband = d.sideband := rfl
@[simp] theorem Dev.setM_flash (e : MEng) (m : MState) : (d.setM e m).flash = d.flash := rfl
@[simp] theorem Dev.setM_boot (e : MEng) (m : MState) : (d.setM e m).boot = d.boot := rfl
@[simp] theorem Dev.setM_recorder (e : MEng) (m : MState) : (d.setM e m).recorder = d.recorder := rfl
@[simp] theorem Dev.setM_monLast (e : MEng) (m : MState) : (d.setM e m).monLast = d.monLast := rfl
@[simp] theorem Dev.setM_sched (e : MEng) (m : MState) : (d.setM e m).sched = d.sched := rfl
@[simp] theorem Dev.setM_posSMap (e : MEng) (m : MState) : (d.setM e m).posSMap = d.posSMap := rfl
@[simp] theorem Dev.setM_xfer (e : MEng) (m : MState) : (d.setM e m).xfer = d.xfer := rfl
@[simp] theorem Dev.setM_atsA (e : MEng) (m : MState) : (d.setM e m).atsA = d.atsA := rfl
@[simp] theorem Dev.setM_atsB (e : MEng) (m : MState) : (d.setM e m).atsB = d.atsB := rfl
@[simp] theorem Dev.setM_inject (e : MEng) (m : MState) : (d.setM e m).inject = d.inject := rfl
@[simp] theorem Dev.setM_landed (e : MEng) (m : MState) : (d.setM e m).landed = d.landed := rfl
@[simp] theorem Dev.setM_gradPort (e : MEng) (m : MState) : (d.setM e m).gradPort = d.gradPort := rfl
@[simp] theorem Dev.setM_vEng (e : MEng) (m : MState) : (d.setM e m).vEng = d.vEng := rfl
@[simp] theorem Dev.setM_sEng (e : MEng) (m : MState) : (d.setM e m).sEng = d.sEng := rfl
@[simp] theorem Dev.setM_ring (e : MEng) (m : MState) : (d.setM e m).ring = d.ring := rfl
@[simp] theorem Dev.setM_net (e : MEng) (m : MState) : (d.setM e m).net = d.net := rfl
@[simp] theorem Dev.setM_nodes (e : MEng) (m : MState) : (d.setM e m).nodes = d.nodes := rfl
@[simp] theorem Dev.setM_dyn (e : MEng) (m : MState) : (d.setM e m).dyn = d.dyn := rfl
@[simp] theorem Dev.setM_netPorts (e : MEng) (m : MState) : (d.setM e m).netPorts = d.netPorts := rfl
@[simp] theorem Dev.setM_nextReq (e : MEng) (m : MState) : (d.setM e m).nextReq = d.nextReq := rfl
@[simp] theorem Dev.setM_tags (e : MEng) (m : MState) : (d.setM e m).tags = d.tags := rfl
@[simp] theorem Dev.setM_upd (e : MEng) (m : MState) : (d.setM e m).upd = d.upd := rfl
@[simp] theorem Dev.setM_updSent (e : MEng) (m : MState) : (d.setM e m).updSent = d.updSent := rfl
@[simp] theorem Dev.setM_scrub (e : MEng) (m : MState) : (d.setM e m).scrub = d.scrub := rfl
@[simp] theorem Dev.setM_banks (e : MEng) (m : MState) : (d.setM e m).banks = d.banks := rfl
@[simp] theorem Dev.setM_errs (e : MEng) (m : MState) : (d.setM e m).errs = d.errs := rfl
@[simp] theorem Dev.setM_ueSeen (e : MEng) (m : MState) : (d.setM e m).ueSeen = d.ueSeen := rfl
@[simp] theorem Dev.setM_retraining (e : MEng) (m : MState) : (d.setM e m).retraining = d.retraining := rfl
@[simp] theorem Dev.setM_wide8 (e : MEng) (m : MState) : (d.setM e m).wide8 = d.wide8 := rfl
@[simp] theorem Dev.setM_clocks (e : MEng) (m : MState) : (d.setM e m).clocks = d.clocks := rfl
@[simp] theorem Dev.setM_fab (e : MEng) (m : MState) : (d.setM e m).fab = d.fab := rfl
@[simp] theorem Dev.setM_snaps (e : MEng) (m : MState) : (d.setM e m).snaps = d.snaps := rfl
@[simp] theorem Dev.setM_nonce (e : MEng) (m : MState) : (d.setM e m).nonce = d.nonce := rfl
@[simp] theorem Dev.setM_gen (e : MEng) (m : MState) : (d.setM e m).gen = d.gen := rfl
@[simp] theorem Dev.setM_out (e : MEng) (m : MState) : (d.setM e m).out = d.out := rfl

/-! ### setV -/
@[simp] theorem Dev.setV_regs (e : VEng) (v : VState) : (d.setV e v).regs = d.regs := rfl
@[simp] theorem Dev.setV_mem (e : VEng) (v : VState) : (d.setV e v).mem = d.mem := rfl
@[simp] theorem Dev.setV_run (e : VEng) (v : VState) : (d.setV e v).run = d.run := rfl
@[simp] theorem Dev.setV_tripped (e : VEng) (v : VState) : (d.setV e v).tripped = d.tripped := rfl
@[simp] theorem Dev.setV_claim (e : VEng) (v : VState) : (d.setV e v).claim = d.claim := rfl
@[simp] theorem Dev.setV_long (e : VEng) (v : VState) : (d.setV e v).long = d.long := rfl
@[simp] theorem Dev.setV_halts (e : VEng) (v : VState) : (d.setV e v).halts = d.halts := rfl
@[simp] theorem Dev.setV_snapReq (e : VEng) (v : VState) : (d.setV e v).snapReq = d.snapReq := rfl
@[simp] theorem Dev.setV_cut (e : VEng) (v : VState) : (d.setV e v).cut = d.cut := rfl
@[simp] theorem Dev.setV_lastFault (e : VEng) (v : VState) : (d.setV e v).lastFault = d.lastFault := rfl
@[simp] theorem Dev.setV_boundsSeen (e : VEng) (v : VState) : (d.setV e v).boundsSeen = d.boundsSeen := rfl
@[simp] theorem Dev.setV_cfg (e : VEng) (v : VState) : (d.setV e v).cfg = d.cfg := rfl
@[simp] theorem Dev.setV_portA (e : VEng) (v : VState) : (d.setV e v).portA = d.portA := rfl
@[simp] theorem Dev.setV_portB (e : VEng) (v : VState) : (d.setV e v).portB = d.portB := rfl
@[simp] theorem Dev.setV_sideband (e : VEng) (v : VState) : (d.setV e v).sideband = d.sideband := rfl
@[simp] theorem Dev.setV_flash (e : VEng) (v : VState) : (d.setV e v).flash = d.flash := rfl
@[simp] theorem Dev.setV_boot (e : VEng) (v : VState) : (d.setV e v).boot = d.boot := rfl
@[simp] theorem Dev.setV_recorder (e : VEng) (v : VState) : (d.setV e v).recorder = d.recorder := rfl
@[simp] theorem Dev.setV_monLast (e : VEng) (v : VState) : (d.setV e v).monLast = d.monLast := rfl
@[simp] theorem Dev.setV_sched (e : VEng) (v : VState) : (d.setV e v).sched = d.sched := rfl
@[simp] theorem Dev.setV_posSMap (e : VEng) (v : VState) : (d.setV e v).posSMap = d.posSMap := rfl
@[simp] theorem Dev.setV_xfer (e : VEng) (v : VState) : (d.setV e v).xfer = d.xfer := rfl
@[simp] theorem Dev.setV_atsA (e : VEng) (v : VState) : (d.setV e v).atsA = d.atsA := rfl
@[simp] theorem Dev.setV_atsB (e : VEng) (v : VState) : (d.setV e v).atsB = d.atsB := rfl
@[simp] theorem Dev.setV_inject (e : VEng) (v : VState) : (d.setV e v).inject = d.inject := rfl
@[simp] theorem Dev.setV_landed (e : VEng) (v : VState) : (d.setV e v).landed = d.landed := rfl
@[simp] theorem Dev.setV_gradPort (e : VEng) (v : VState) : (d.setV e v).gradPort = d.gradPort := rfl
@[simp] theorem Dev.setV_mEng (e : VEng) (v : VState) : (d.setV e v).mEng = d.mEng := rfl
@[simp] theorem Dev.setV_sEng (e : VEng) (v : VState) : (d.setV e v).sEng = d.sEng := rfl
@[simp] theorem Dev.setV_ring (e : VEng) (v : VState) : (d.setV e v).ring = d.ring := rfl
@[simp] theorem Dev.setV_net (e : VEng) (v : VState) : (d.setV e v).net = d.net := rfl
@[simp] theorem Dev.setV_nodes (e : VEng) (v : VState) : (d.setV e v).nodes = d.nodes := rfl
@[simp] theorem Dev.setV_dyn (e : VEng) (v : VState) : (d.setV e v).dyn = d.dyn := rfl
@[simp] theorem Dev.setV_netPorts (e : VEng) (v : VState) : (d.setV e v).netPorts = d.netPorts := rfl
@[simp] theorem Dev.setV_nextReq (e : VEng) (v : VState) : (d.setV e v).nextReq = d.nextReq := rfl
@[simp] theorem Dev.setV_tags (e : VEng) (v : VState) : (d.setV e v).tags = d.tags := rfl
@[simp] theorem Dev.setV_upd (e : VEng) (v : VState) : (d.setV e v).upd = d.upd := rfl
@[simp] theorem Dev.setV_updSent (e : VEng) (v : VState) : (d.setV e v).updSent = d.updSent := rfl
@[simp] theorem Dev.setV_scrub (e : VEng) (v : VState) : (d.setV e v).scrub = d.scrub := rfl
@[simp] theorem Dev.setV_banks (e : VEng) (v : VState) : (d.setV e v).banks = d.banks := rfl
@[simp] theorem Dev.setV_errs (e : VEng) (v : VState) : (d.setV e v).errs = d.errs := rfl
@[simp] theorem Dev.setV_ueSeen (e : VEng) (v : VState) : (d.setV e v).ueSeen = d.ueSeen := rfl
@[simp] theorem Dev.setV_retraining (e : VEng) (v : VState) : (d.setV e v).retraining = d.retraining := rfl
@[simp] theorem Dev.setV_wide8 (e : VEng) (v : VState) : (d.setV e v).wide8 = d.wide8 := rfl
@[simp] theorem Dev.setV_clocks (e : VEng) (v : VState) : (d.setV e v).clocks = d.clocks := rfl
@[simp] theorem Dev.setV_fab (e : VEng) (v : VState) : (d.setV e v).fab = d.fab := rfl
@[simp] theorem Dev.setV_snaps (e : VEng) (v : VState) : (d.setV e v).snaps = d.snaps := rfl
@[simp] theorem Dev.setV_nonce (e : VEng) (v : VState) : (d.setV e v).nonce = d.nonce := rfl
@[simp] theorem Dev.setV_gen (e : VEng) (v : VState) : (d.setV e v).gen = d.gen := rfl
@[simp] theorem Dev.setV_out (e : VEng) (v : VState) : (d.setV e v).out = d.out := rfl

/-! ### setS -/
@[simp] theorem Dev.setS_regs (e : SEng) (v : SState) : (d.setS e v).regs = d.regs := rfl
@[simp] theorem Dev.setS_mem (e : SEng) (v : SState) : (d.setS e v).mem = d.mem := rfl
@[simp] theorem Dev.setS_run (e : SEng) (v : SState) : (d.setS e v).run = d.run := rfl
@[simp] theorem Dev.setS_tripped (e : SEng) (v : SState) : (d.setS e v).tripped = d.tripped := rfl
@[simp] theorem Dev.setS_claim (e : SEng) (v : SState) : (d.setS e v).claim = d.claim := rfl
@[simp] theorem Dev.setS_long (e : SEng) (v : SState) : (d.setS e v).long = d.long := rfl
@[simp] theorem Dev.setS_halts (e : SEng) (v : SState) : (d.setS e v).halts = d.halts := rfl
@[simp] theorem Dev.setS_snapReq (e : SEng) (v : SState) : (d.setS e v).snapReq = d.snapReq := rfl
@[simp] theorem Dev.setS_cut (e : SEng) (v : SState) : (d.setS e v).cut = d.cut := rfl
@[simp] theorem Dev.setS_lastFault (e : SEng) (v : SState) : (d.setS e v).lastFault = d.lastFault := rfl
@[simp] theorem Dev.setS_boundsSeen (e : SEng) (v : SState) : (d.setS e v).boundsSeen = d.boundsSeen := rfl
@[simp] theorem Dev.setS_cfg (e : SEng) (v : SState) : (d.setS e v).cfg = d.cfg := rfl
@[simp] theorem Dev.setS_portA (e : SEng) (v : SState) : (d.setS e v).portA = d.portA := rfl
@[simp] theorem Dev.setS_portB (e : SEng) (v : SState) : (d.setS e v).portB = d.portB := rfl
@[simp] theorem Dev.setS_sideband (e : SEng) (v : SState) : (d.setS e v).sideband = d.sideband := rfl
@[simp] theorem Dev.setS_flash (e : SEng) (v : SState) : (d.setS e v).flash = d.flash := rfl
@[simp] theorem Dev.setS_boot (e : SEng) (v : SState) : (d.setS e v).boot = d.boot := rfl
@[simp] theorem Dev.setS_recorder (e : SEng) (v : SState) : (d.setS e v).recorder = d.recorder := rfl
@[simp] theorem Dev.setS_monLast (e : SEng) (v : SState) : (d.setS e v).monLast = d.monLast := rfl
@[simp] theorem Dev.setS_sched (e : SEng) (v : SState) : (d.setS e v).sched = d.sched := rfl
@[simp] theorem Dev.setS_posSMap (e : SEng) (v : SState) : (d.setS e v).posSMap = d.posSMap := rfl
@[simp] theorem Dev.setS_xfer (e : SEng) (v : SState) : (d.setS e v).xfer = d.xfer := rfl
@[simp] theorem Dev.setS_atsA (e : SEng) (v : SState) : (d.setS e v).atsA = d.atsA := rfl
@[simp] theorem Dev.setS_atsB (e : SEng) (v : SState) : (d.setS e v).atsB = d.atsB := rfl
@[simp] theorem Dev.setS_inject (e : SEng) (v : SState) : (d.setS e v).inject = d.inject := rfl
@[simp] theorem Dev.setS_landed (e : SEng) (v : SState) : (d.setS e v).landed = d.landed := rfl
@[simp] theorem Dev.setS_gradPort (e : SEng) (v : SState) : (d.setS e v).gradPort = d.gradPort := rfl
@[simp] theorem Dev.setS_mEng (e : SEng) (v : SState) : (d.setS e v).mEng = d.mEng := rfl
@[simp] theorem Dev.setS_vEng (e : SEng) (v : SState) : (d.setS e v).vEng = d.vEng := rfl
@[simp] theorem Dev.setS_ring (e : SEng) (v : SState) : (d.setS e v).ring = d.ring := rfl
@[simp] theorem Dev.setS_net (e : SEng) (v : SState) : (d.setS e v).net = d.net := rfl
@[simp] theorem Dev.setS_nodes (e : SEng) (v : SState) : (d.setS e v).nodes = d.nodes := rfl
@[simp] theorem Dev.setS_dyn (e : SEng) (v : SState) : (d.setS e v).dyn = d.dyn := rfl
@[simp] theorem Dev.setS_netPorts (e : SEng) (v : SState) : (d.setS e v).netPorts = d.netPorts := rfl
@[simp] theorem Dev.setS_nextReq (e : SEng) (v : SState) : (d.setS e v).nextReq = d.nextReq := rfl
@[simp] theorem Dev.setS_tags (e : SEng) (v : SState) : (d.setS e v).tags = d.tags := rfl
@[simp] theorem Dev.setS_upd (e : SEng) (v : SState) : (d.setS e v).upd = d.upd := rfl
@[simp] theorem Dev.setS_updSent (e : SEng) (v : SState) : (d.setS e v).updSent = d.updSent := rfl
@[simp] theorem Dev.setS_scrub (e : SEng) (v : SState) : (d.setS e v).scrub = d.scrub := rfl
@[simp] theorem Dev.setS_banks (e : SEng) (v : SState) : (d.setS e v).banks = d.banks := rfl
@[simp] theorem Dev.setS_errs (e : SEng) (v : SState) : (d.setS e v).errs = d.errs := rfl
@[simp] theorem Dev.setS_ueSeen (e : SEng) (v : SState) : (d.setS e v).ueSeen = d.ueSeen := rfl
@[simp] theorem Dev.setS_retraining (e : SEng) (v : SState) : (d.setS e v).retraining = d.retraining := rfl
@[simp] theorem Dev.setS_wide8 (e : SEng) (v : SState) : (d.setS e v).wide8 = d.wide8 := rfl
@[simp] theorem Dev.setS_clocks (e : SEng) (v : SState) : (d.setS e v).clocks = d.clocks := rfl
@[simp] theorem Dev.setS_fab (e : SEng) (v : SState) : (d.setS e v).fab = d.fab := rfl
@[simp] theorem Dev.setS_snaps (e : SEng) (v : SState) : (d.setS e v).snaps = d.snaps := rfl
@[simp] theorem Dev.setS_nonce (e : SEng) (v : SState) : (d.setS e v).nonce = d.nonce := rfl
@[simp] theorem Dev.setS_gen (e : SEng) (v : SState) : (d.setS e v).gen = d.gen := rfl
@[simp] theorem Dev.setS_out (e : SEng) (v : SState) : (d.setS e v).out = d.out := rfl

/-! ### setX -/
@[simp] theorem Dev.setX_regs (n : Nat) (x : Xfer) : (d.setX n x).regs = d.regs := rfl
@[simp] theorem Dev.setX_mem (n : Nat) (x : Xfer) : (d.setX n x).mem = d.mem := rfl
@[simp] theorem Dev.setX_run (n : Nat) (x : Xfer) : (d.setX n x).run = d.run := rfl
@[simp] theorem Dev.setX_tripped (n : Nat) (x : Xfer) : (d.setX n x).tripped = d.tripped := rfl
@[simp] theorem Dev.setX_claim (n : Nat) (x : Xfer) : (d.setX n x).claim = d.claim := rfl
@[simp] theorem Dev.setX_long (n : Nat) (x : Xfer) : (d.setX n x).long = d.long := rfl
@[simp] theorem Dev.setX_halts (n : Nat) (x : Xfer) : (d.setX n x).halts = d.halts := rfl
@[simp] theorem Dev.setX_snapReq (n : Nat) (x : Xfer) : (d.setX n x).snapReq = d.snapReq := rfl
@[simp] theorem Dev.setX_cut (n : Nat) (x : Xfer) : (d.setX n x).cut = d.cut := rfl
@[simp] theorem Dev.setX_lastFault (n : Nat) (x : Xfer) : (d.setX n x).lastFault = d.lastFault := rfl
@[simp] theorem Dev.setX_boundsSeen (n : Nat) (x : Xfer) : (d.setX n x).boundsSeen = d.boundsSeen := rfl
@[simp] theorem Dev.setX_cfg (n : Nat) (x : Xfer) : (d.setX n x).cfg = d.cfg := rfl
@[simp] theorem Dev.setX_portA (n : Nat) (x : Xfer) : (d.setX n x).portA = d.portA := rfl
@[simp] theorem Dev.setX_portB (n : Nat) (x : Xfer) : (d.setX n x).portB = d.portB := rfl
@[simp] theorem Dev.setX_sideband (n : Nat) (x : Xfer) : (d.setX n x).sideband = d.sideband := rfl
@[simp] theorem Dev.setX_flash (n : Nat) (x : Xfer) : (d.setX n x).flash = d.flash := rfl
@[simp] theorem Dev.setX_boot (n : Nat) (x : Xfer) : (d.setX n x).boot = d.boot := rfl
@[simp] theorem Dev.setX_recorder (n : Nat) (x : Xfer) : (d.setX n x).recorder = d.recorder := rfl
@[simp] theorem Dev.setX_monLast (n : Nat) (x : Xfer) : (d.setX n x).monLast = d.monLast := rfl
@[simp] theorem Dev.setX_sched (n : Nat) (x : Xfer) : (d.setX n x).sched = d.sched := rfl
@[simp] theorem Dev.setX_posSMap (n : Nat) (x : Xfer) : (d.setX n x).posSMap = d.posSMap := rfl
@[simp] theorem Dev.setX_atsA (n : Nat) (x : Xfer) : (d.setX n x).atsA = d.atsA := rfl
@[simp] theorem Dev.setX_atsB (n : Nat) (x : Xfer) : (d.setX n x).atsB = d.atsB := rfl
@[simp] theorem Dev.setX_inject (n : Nat) (x : Xfer) : (d.setX n x).inject = d.inject := rfl
@[simp] theorem Dev.setX_landed (n : Nat) (x : Xfer) : (d.setX n x).landed = d.landed := rfl
@[simp] theorem Dev.setX_gradPort (n : Nat) (x : Xfer) : (d.setX n x).gradPort = d.gradPort := rfl
@[simp] theorem Dev.setX_mEng (n : Nat) (x : Xfer) : (d.setX n x).mEng = d.mEng := rfl
@[simp] theorem Dev.setX_vEng (n : Nat) (x : Xfer) : (d.setX n x).vEng = d.vEng := rfl
@[simp] theorem Dev.setX_sEng (n : Nat) (x : Xfer) : (d.setX n x).sEng = d.sEng := rfl
@[simp] theorem Dev.setX_ring (n : Nat) (x : Xfer) : (d.setX n x).ring = d.ring := rfl
@[simp] theorem Dev.setX_net (n : Nat) (x : Xfer) : (d.setX n x).net = d.net := rfl
@[simp] theorem Dev.setX_nodes (n : Nat) (x : Xfer) : (d.setX n x).nodes = d.nodes := rfl
@[simp] theorem Dev.setX_dyn (n : Nat) (x : Xfer) : (d.setX n x).dyn = d.dyn := rfl
@[simp] theorem Dev.setX_netPorts (n : Nat) (x : Xfer) : (d.setX n x).netPorts = d.netPorts := rfl
@[simp] theorem Dev.setX_nextReq (n : Nat) (x : Xfer) : (d.setX n x).nextReq = d.nextReq := rfl
@[simp] theorem Dev.setX_tags (n : Nat) (x : Xfer) : (d.setX n x).tags = d.tags := rfl
@[simp] theorem Dev.setX_upd (n : Nat) (x : Xfer) : (d.setX n x).upd = d.upd := rfl
@[simp] theorem Dev.setX_updSent (n : Nat) (x : Xfer) : (d.setX n x).updSent = d.updSent := rfl
@[simp] theorem Dev.setX_scrub (n : Nat) (x : Xfer) : (d.setX n x).scrub = d.scrub := rfl
@[simp] theorem Dev.setX_banks (n : Nat) (x : Xfer) : (d.setX n x).banks = d.banks := rfl
@[simp] theorem Dev.setX_errs (n : Nat) (x : Xfer) : (d.setX n x).errs = d.errs := rfl
@[simp] theorem Dev.setX_ueSeen (n : Nat) (x : Xfer) : (d.setX n x).ueSeen = d.ueSeen := rfl
@[simp] theorem Dev.setX_retraining (n : Nat) (x : Xfer) : (d.setX n x).retraining = d.retraining := rfl
@[simp] theorem Dev.setX_wide8 (n : Nat) (x : Xfer) : (d.setX n x).wide8 = d.wide8 := rfl
@[simp] theorem Dev.setX_clocks (n : Nat) (x : Xfer) : (d.setX n x).clocks = d.clocks := rfl
@[simp] theorem Dev.setX_fab (n : Nat) (x : Xfer) : (d.setX n x).fab = d.fab := rfl
@[simp] theorem Dev.setX_snaps (n : Nat) (x : Xfer) : (d.setX n x).snaps = d.snaps := rfl
@[simp] theorem Dev.setX_nonce (n : Nat) (x : Xfer) : (d.setX n x).nonce = d.nonce := rfl
@[simp] theorem Dev.setX_gen (n : Nat) (x : Xfer) : (d.setX n x).gen = d.gen := rfl
@[simp] theorem Dev.setX_out (n : Nat) (x : Xfer) : (d.setX n x).out = d.out := rfl

/-! ### setUnit -/
@[simp] theorem Dev.setUnit_regs (u : Nat) (x : UpdUnit) : (d.setUnit u x).regs = d.regs := rfl
@[simp] theorem Dev.setUnit_mem (u : Nat) (x : UpdUnit) : (d.setUnit u x).mem = d.mem := rfl
@[simp] theorem Dev.setUnit_run (u : Nat) (x : UpdUnit) : (d.setUnit u x).run = d.run := rfl
@[simp] theorem Dev.setUnit_tripped (u : Nat) (x : UpdUnit) : (d.setUnit u x).tripped = d.tripped := rfl
@[simp] theorem Dev.setUnit_claim (u : Nat) (x : UpdUnit) : (d.setUnit u x).claim = d.claim := rfl
@[simp] theorem Dev.setUnit_long (u : Nat) (x : UpdUnit) : (d.setUnit u x).long = d.long := rfl
@[simp] theorem Dev.setUnit_halts (u : Nat) (x : UpdUnit) : (d.setUnit u x).halts = d.halts := rfl
@[simp] theorem Dev.setUnit_snapReq (u : Nat) (x : UpdUnit) : (d.setUnit u x).snapReq = d.snapReq := rfl
@[simp] theorem Dev.setUnit_cut (u : Nat) (x : UpdUnit) : (d.setUnit u x).cut = d.cut := rfl
@[simp] theorem Dev.setUnit_lastFault (u : Nat) (x : UpdUnit) : (d.setUnit u x).lastFault = d.lastFault := rfl
@[simp] theorem Dev.setUnit_boundsSeen (u : Nat) (x : UpdUnit) : (d.setUnit u x).boundsSeen = d.boundsSeen := rfl
@[simp] theorem Dev.setUnit_cfg (u : Nat) (x : UpdUnit) : (d.setUnit u x).cfg = d.cfg := rfl
@[simp] theorem Dev.setUnit_portA (u : Nat) (x : UpdUnit) : (d.setUnit u x).portA = d.portA := rfl
@[simp] theorem Dev.setUnit_portB (u : Nat) (x : UpdUnit) : (d.setUnit u x).portB = d.portB := rfl
@[simp] theorem Dev.setUnit_sideband (u : Nat) (x : UpdUnit) : (d.setUnit u x).sideband = d.sideband := rfl
@[simp] theorem Dev.setUnit_flash (u : Nat) (x : UpdUnit) : (d.setUnit u x).flash = d.flash := rfl
@[simp] theorem Dev.setUnit_boot (u : Nat) (x : UpdUnit) : (d.setUnit u x).boot = d.boot := rfl
@[simp] theorem Dev.setUnit_recorder (u : Nat) (x : UpdUnit) : (d.setUnit u x).recorder = d.recorder := rfl
@[simp] theorem Dev.setUnit_monLast (u : Nat) (x : UpdUnit) : (d.setUnit u x).monLast = d.monLast := rfl
@[simp] theorem Dev.setUnit_sched (u : Nat) (x : UpdUnit) : (d.setUnit u x).sched = d.sched := rfl
@[simp] theorem Dev.setUnit_posSMap (u : Nat) (x : UpdUnit) : (d.setUnit u x).posSMap = d.posSMap := rfl
@[simp] theorem Dev.setUnit_xfer (u : Nat) (x : UpdUnit) : (d.setUnit u x).xfer = d.xfer := rfl
@[simp] theorem Dev.setUnit_atsA (u : Nat) (x : UpdUnit) : (d.setUnit u x).atsA = d.atsA := rfl
@[simp] theorem Dev.setUnit_atsB (u : Nat) (x : UpdUnit) : (d.setUnit u x).atsB = d.atsB := rfl
@[simp] theorem Dev.setUnit_inject (u : Nat) (x : UpdUnit) : (d.setUnit u x).inject = d.inject := rfl
@[simp] theorem Dev.setUnit_landed (u : Nat) (x : UpdUnit) : (d.setUnit u x).landed = d.landed := rfl
@[simp] theorem Dev.setUnit_gradPort (u : Nat) (x : UpdUnit) : (d.setUnit u x).gradPort = d.gradPort := rfl
@[simp] theorem Dev.setUnit_mEng (u : Nat) (x : UpdUnit) : (d.setUnit u x).mEng = d.mEng := rfl
@[simp] theorem Dev.setUnit_vEng (u : Nat) (x : UpdUnit) : (d.setUnit u x).vEng = d.vEng := rfl
@[simp] theorem Dev.setUnit_sEng (u : Nat) (x : UpdUnit) : (d.setUnit u x).sEng = d.sEng := rfl
@[simp] theorem Dev.setUnit_ring (u : Nat) (x : UpdUnit) : (d.setUnit u x).ring = d.ring := rfl
@[simp] theorem Dev.setUnit_net (u : Nat) (x : UpdUnit) : (d.setUnit u x).net = d.net := rfl
@[simp] theorem Dev.setUnit_nodes (u : Nat) (x : UpdUnit) : (d.setUnit u x).nodes = d.nodes := rfl
@[simp] theorem Dev.setUnit_dyn (u : Nat) (x : UpdUnit) : (d.setUnit u x).dyn = d.dyn := rfl
@[simp] theorem Dev.setUnit_netPorts (u : Nat) (x : UpdUnit) : (d.setUnit u x).netPorts = d.netPorts := rfl
@[simp] theorem Dev.setUnit_nextReq (u : Nat) (x : UpdUnit) : (d.setUnit u x).nextReq = d.nextReq := rfl
@[simp] theorem Dev.setUnit_tags (u : Nat) (x : UpdUnit) : (d.setUnit u x).tags = d.tags := rfl
@[simp] theorem Dev.setUnit_updSent (u : Nat) (x : UpdUnit) : (d.setUnit u x).updSent = d.updSent := rfl
@[simp] theorem Dev.setUnit_scrub (u : Nat) (x : UpdUnit) : (d.setUnit u x).scrub = d.scrub := rfl
@[simp] theorem Dev.setUnit_banks (u : Nat) (x : UpdUnit) : (d.setUnit u x).banks = d.banks := rfl
@[simp] theorem Dev.setUnit_errs (u : Nat) (x : UpdUnit) : (d.setUnit u x).errs = d.errs := rfl
@[simp] theorem Dev.setUnit_ueSeen (u : Nat) (x : UpdUnit) : (d.setUnit u x).ueSeen = d.ueSeen := rfl
@[simp] theorem Dev.setUnit_retraining (u : Nat) (x : UpdUnit) : (d.setUnit u x).retraining = d.retraining := rfl
@[simp] theorem Dev.setUnit_wide8 (u : Nat) (x : UpdUnit) : (d.setUnit u x).wide8 = d.wide8 := rfl
@[simp] theorem Dev.setUnit_clocks (u : Nat) (x : UpdUnit) : (d.setUnit u x).clocks = d.clocks := rfl
@[simp] theorem Dev.setUnit_fab (u : Nat) (x : UpdUnit) : (d.setUnit u x).fab = d.fab := rfl
@[simp] theorem Dev.setUnit_snaps (u : Nat) (x : UpdUnit) : (d.setUnit u x).snaps = d.snaps := rfl
@[simp] theorem Dev.setUnit_nonce (u : Nat) (x : UpdUnit) : (d.setUnit u x).nonce = d.nonce := rfl
@[simp] theorem Dev.setUnit_gen (u : Nat) (x : UpdUnit) : (d.setUnit u x).gen = d.gen := rfl
@[simp] theorem Dev.setUnit_out (u : Nat) (x : UpdUnit) : (d.setUnit u x).out = d.out := rfl

/-! ### mapClocks -/
@[simp] theorem Dev.mapClocks_regs (f : Clocks → Clocks) : (d.mapClocks f).regs = d.regs := rfl
@[simp] theorem Dev.mapClocks_mem (f : Clocks → Clocks) : (d.mapClocks f).mem = d.mem := rfl
@[simp] theorem Dev.mapClocks_run (f : Clocks → Clocks) : (d.mapClocks f).run = d.run := rfl
@[simp] theorem Dev.mapClocks_tripped (f : Clocks → Clocks) : (d.mapClocks f).tripped = d.tripped := rfl
@[simp] theorem Dev.mapClocks_claim (f : Clocks → Clocks) : (d.mapClocks f).claim = d.claim := rfl
@[simp] theorem Dev.mapClocks_long (f : Clocks → Clocks) : (d.mapClocks f).long = d.long := rfl
@[simp] theorem Dev.mapClocks_halts (f : Clocks → Clocks) : (d.mapClocks f).halts = d.halts := rfl
@[simp] theorem Dev.mapClocks_snapReq (f : Clocks → Clocks) : (d.mapClocks f).snapReq = d.snapReq := rfl
@[simp] theorem Dev.mapClocks_cut (f : Clocks → Clocks) : (d.mapClocks f).cut = d.cut := rfl
@[simp] theorem Dev.mapClocks_lastFault (f : Clocks → Clocks) : (d.mapClocks f).lastFault = d.lastFault := rfl
@[simp] theorem Dev.mapClocks_boundsSeen (f : Clocks → Clocks) : (d.mapClocks f).boundsSeen = d.boundsSeen := rfl
@[simp] theorem Dev.mapClocks_cfg (f : Clocks → Clocks) : (d.mapClocks f).cfg = d.cfg := rfl
@[simp] theorem Dev.mapClocks_portA (f : Clocks → Clocks) : (d.mapClocks f).portA = d.portA := rfl
@[simp] theorem Dev.mapClocks_portB (f : Clocks → Clocks) : (d.mapClocks f).portB = d.portB := rfl
@[simp] theorem Dev.mapClocks_sideband (f : Clocks → Clocks) : (d.mapClocks f).sideband = d.sideband := rfl
@[simp] theorem Dev.mapClocks_flash (f : Clocks → Clocks) : (d.mapClocks f).flash = d.flash := rfl
@[simp] theorem Dev.mapClocks_boot (f : Clocks → Clocks) : (d.mapClocks f).boot = d.boot := rfl
@[simp] theorem Dev.mapClocks_recorder (f : Clocks → Clocks) : (d.mapClocks f).recorder = d.recorder := rfl
@[simp] theorem Dev.mapClocks_monLast (f : Clocks → Clocks) : (d.mapClocks f).monLast = d.monLast := rfl
@[simp] theorem Dev.mapClocks_sched (f : Clocks → Clocks) : (d.mapClocks f).sched = d.sched := rfl
@[simp] theorem Dev.mapClocks_posSMap (f : Clocks → Clocks) : (d.mapClocks f).posSMap = d.posSMap := rfl
@[simp] theorem Dev.mapClocks_xfer (f : Clocks → Clocks) : (d.mapClocks f).xfer = d.xfer := rfl
@[simp] theorem Dev.mapClocks_atsA (f : Clocks → Clocks) : (d.mapClocks f).atsA = d.atsA := rfl
@[simp] theorem Dev.mapClocks_atsB (f : Clocks → Clocks) : (d.mapClocks f).atsB = d.atsB := rfl
@[simp] theorem Dev.mapClocks_inject (f : Clocks → Clocks) : (d.mapClocks f).inject = d.inject := rfl
@[simp] theorem Dev.mapClocks_landed (f : Clocks → Clocks) : (d.mapClocks f).landed = d.landed := rfl
@[simp] theorem Dev.mapClocks_gradPort (f : Clocks → Clocks) : (d.mapClocks f).gradPort = d.gradPort := rfl
@[simp] theorem Dev.mapClocks_mEng (f : Clocks → Clocks) : (d.mapClocks f).mEng = d.mEng := rfl
@[simp] theorem Dev.mapClocks_vEng (f : Clocks → Clocks) : (d.mapClocks f).vEng = d.vEng := rfl
@[simp] theorem Dev.mapClocks_sEng (f : Clocks → Clocks) : (d.mapClocks f).sEng = d.sEng := rfl
@[simp] theorem Dev.mapClocks_ring (f : Clocks → Clocks) : (d.mapClocks f).ring = d.ring := rfl
@[simp] theorem Dev.mapClocks_net (f : Clocks → Clocks) : (d.mapClocks f).net = d.net := rfl
@[simp] theorem Dev.mapClocks_nodes (f : Clocks → Clocks) : (d.mapClocks f).nodes = d.nodes := rfl
@[simp] theorem Dev.mapClocks_dyn (f : Clocks → Clocks) : (d.mapClocks f).dyn = d.dyn := rfl
@[simp] theorem Dev.mapClocks_netPorts (f : Clocks → Clocks) : (d.mapClocks f).netPorts = d.netPorts := rfl
@[simp] theorem Dev.mapClocks_nextReq (f : Clocks → Clocks) : (d.mapClocks f).nextReq = d.nextReq := rfl
@[simp] theorem Dev.mapClocks_tags (f : Clocks → Clocks) : (d.mapClocks f).tags = d.tags := rfl
@[simp] theorem Dev.mapClocks_upd (f : Clocks → Clocks) : (d.mapClocks f).upd = d.upd := rfl
@[simp] theorem Dev.mapClocks_updSent (f : Clocks → Clocks) : (d.mapClocks f).updSent = d.updSent := rfl
@[simp] theorem Dev.mapClocks_scrub (f : Clocks → Clocks) : (d.mapClocks f).scrub = d.scrub := rfl
@[simp] theorem Dev.mapClocks_banks (f : Clocks → Clocks) : (d.mapClocks f).banks = d.banks := rfl
@[simp] theorem Dev.mapClocks_errs (f : Clocks → Clocks) : (d.mapClocks f).errs = d.errs := rfl
@[simp] theorem Dev.mapClocks_ueSeen (f : Clocks → Clocks) : (d.mapClocks f).ueSeen = d.ueSeen := rfl
@[simp] theorem Dev.mapClocks_retraining (f : Clocks → Clocks) : (d.mapClocks f).retraining = d.retraining := rfl
@[simp] theorem Dev.mapClocks_wide8 (f : Clocks → Clocks) : (d.mapClocks f).wide8 = d.wide8 := rfl
@[simp] theorem Dev.mapClocks_fab (f : Clocks → Clocks) : (d.mapClocks f).fab = d.fab := rfl
@[simp] theorem Dev.mapClocks_snaps (f : Clocks → Clocks) : (d.mapClocks f).snaps = d.snaps := rfl
@[simp] theorem Dev.mapClocks_nonce (f : Clocks → Clocks) : (d.mapClocks f).nonce = d.nonce := rfl
@[simp] theorem Dev.mapClocks_gen (f : Clocks → Clocks) : (d.mapClocks f).gen = d.gen := rfl
@[simp] theorem Dev.mapClocks_out (f : Clocks → Clocks) : (d.mapClocks f).out = d.out := rfl

/-! ### mapFab -/
@[simp] theorem Dev.mapFab_regs (f : Fabric → Fabric) : (d.mapFab f).regs = d.regs := rfl
@[simp] theorem Dev.mapFab_mem (f : Fabric → Fabric) : (d.mapFab f).mem = d.mem := rfl
@[simp] theorem Dev.mapFab_run (f : Fabric → Fabric) : (d.mapFab f).run = d.run := rfl
@[simp] theorem Dev.mapFab_tripped (f : Fabric → Fabric) : (d.mapFab f).tripped = d.tripped := rfl
@[simp] theorem Dev.mapFab_claim (f : Fabric → Fabric) : (d.mapFab f).claim = d.claim := rfl
@[simp] theorem Dev.mapFab_long (f : Fabric → Fabric) : (d.mapFab f).long = d.long := rfl
@[simp] theorem Dev.mapFab_halts (f : Fabric → Fabric) : (d.mapFab f).halts = d.halts := rfl
@[simp] theorem Dev.mapFab_snapReq (f : Fabric → Fabric) : (d.mapFab f).snapReq = d.snapReq := rfl
@[simp] theorem Dev.mapFab_cut (f : Fabric → Fabric) : (d.mapFab f).cut = d.cut := rfl
@[simp] theorem Dev.mapFab_lastFault (f : Fabric → Fabric) : (d.mapFab f).lastFault = d.lastFault := rfl
@[simp] theorem Dev.mapFab_boundsSeen (f : Fabric → Fabric) : (d.mapFab f).boundsSeen = d.boundsSeen := rfl
@[simp] theorem Dev.mapFab_cfg (f : Fabric → Fabric) : (d.mapFab f).cfg = d.cfg := rfl
@[simp] theorem Dev.mapFab_portA (f : Fabric → Fabric) : (d.mapFab f).portA = d.portA := rfl
@[simp] theorem Dev.mapFab_portB (f : Fabric → Fabric) : (d.mapFab f).portB = d.portB := rfl
@[simp] theorem Dev.mapFab_sideband (f : Fabric → Fabric) : (d.mapFab f).sideband = d.sideband := rfl
@[simp] theorem Dev.mapFab_flash (f : Fabric → Fabric) : (d.mapFab f).flash = d.flash := rfl
@[simp] theorem Dev.mapFab_boot (f : Fabric → Fabric) : (d.mapFab f).boot = d.boot := rfl
@[simp] theorem Dev.mapFab_recorder (f : Fabric → Fabric) : (d.mapFab f).recorder = d.recorder := rfl
@[simp] theorem Dev.mapFab_monLast (f : Fabric → Fabric) : (d.mapFab f).monLast = d.monLast := rfl
@[simp] theorem Dev.mapFab_sched (f : Fabric → Fabric) : (d.mapFab f).sched = d.sched := rfl
@[simp] theorem Dev.mapFab_posSMap (f : Fabric → Fabric) : (d.mapFab f).posSMap = d.posSMap := rfl
@[simp] theorem Dev.mapFab_xfer (f : Fabric → Fabric) : (d.mapFab f).xfer = d.xfer := rfl
@[simp] theorem Dev.mapFab_atsA (f : Fabric → Fabric) : (d.mapFab f).atsA = d.atsA := rfl
@[simp] theorem Dev.mapFab_atsB (f : Fabric → Fabric) : (d.mapFab f).atsB = d.atsB := rfl
@[simp] theorem Dev.mapFab_inject (f : Fabric → Fabric) : (d.mapFab f).inject = d.inject := rfl
@[simp] theorem Dev.mapFab_landed (f : Fabric → Fabric) : (d.mapFab f).landed = d.landed := rfl
@[simp] theorem Dev.mapFab_gradPort (f : Fabric → Fabric) : (d.mapFab f).gradPort = d.gradPort := rfl
@[simp] theorem Dev.mapFab_mEng (f : Fabric → Fabric) : (d.mapFab f).mEng = d.mEng := rfl
@[simp] theorem Dev.mapFab_vEng (f : Fabric → Fabric) : (d.mapFab f).vEng = d.vEng := rfl
@[simp] theorem Dev.mapFab_sEng (f : Fabric → Fabric) : (d.mapFab f).sEng = d.sEng := rfl
@[simp] theorem Dev.mapFab_ring (f : Fabric → Fabric) : (d.mapFab f).ring = d.ring := rfl
@[simp] theorem Dev.mapFab_net (f : Fabric → Fabric) : (d.mapFab f).net = d.net := rfl
@[simp] theorem Dev.mapFab_nodes (f : Fabric → Fabric) : (d.mapFab f).nodes = d.nodes := rfl
@[simp] theorem Dev.mapFab_dyn (f : Fabric → Fabric) : (d.mapFab f).dyn = d.dyn := rfl
@[simp] theorem Dev.mapFab_netPorts (f : Fabric → Fabric) : (d.mapFab f).netPorts = d.netPorts := rfl
@[simp] theorem Dev.mapFab_nextReq (f : Fabric → Fabric) : (d.mapFab f).nextReq = d.nextReq := rfl
@[simp] theorem Dev.mapFab_tags (f : Fabric → Fabric) : (d.mapFab f).tags = d.tags := rfl
@[simp] theorem Dev.mapFab_upd (f : Fabric → Fabric) : (d.mapFab f).upd = d.upd := rfl
@[simp] theorem Dev.mapFab_updSent (f : Fabric → Fabric) : (d.mapFab f).updSent = d.updSent := rfl
@[simp] theorem Dev.mapFab_scrub (f : Fabric → Fabric) : (d.mapFab f).scrub = d.scrub := rfl
@[simp] theorem Dev.mapFab_banks (f : Fabric → Fabric) : (d.mapFab f).banks = d.banks := rfl
@[simp] theorem Dev.mapFab_errs (f : Fabric → Fabric) : (d.mapFab f).errs = d.errs := rfl
@[simp] theorem Dev.mapFab_ueSeen (f : Fabric → Fabric) : (d.mapFab f).ueSeen = d.ueSeen := rfl
@[simp] theorem Dev.mapFab_retraining (f : Fabric → Fabric) : (d.mapFab f).retraining = d.retraining := rfl
@[simp] theorem Dev.mapFab_wide8 (f : Fabric → Fabric) : (d.mapFab f).wide8 = d.wide8 := rfl
@[simp] theorem Dev.mapFab_clocks (f : Fabric → Fabric) : (d.mapFab f).clocks = d.clocks := rfl
@[simp] theorem Dev.mapFab_snaps (f : Fabric → Fabric) : (d.mapFab f).snaps = d.snaps := rfl
@[simp] theorem Dev.mapFab_nonce (f : Fabric → Fabric) : (d.mapFab f).nonce = d.nonce := rfl
@[simp] theorem Dev.mapFab_gen (f : Fabric → Fabric) : (d.mapFab f).gen = d.gen := rfl
@[simp] theorem Dev.mapFab_out (f : Fabric → Fabric) : (d.mapFab f).out = d.out := rfl

/-! ### setFport -/
@[simp] theorem Dev.setFport_regs (p : Nat) (x : FabPort) : (d.setFport p x).regs = d.regs := rfl
@[simp] theorem Dev.setFport_mem (p : Nat) (x : FabPort) : (d.setFport p x).mem = d.mem := rfl
@[simp] theorem Dev.setFport_run (p : Nat) (x : FabPort) : (d.setFport p x).run = d.run := rfl
@[simp] theorem Dev.setFport_tripped (p : Nat) (x : FabPort) : (d.setFport p x).tripped = d.tripped := rfl
@[simp] theorem Dev.setFport_claim (p : Nat) (x : FabPort) : (d.setFport p x).claim = d.claim := rfl
@[simp] theorem Dev.setFport_long (p : Nat) (x : FabPort) : (d.setFport p x).long = d.long := rfl
@[simp] theorem Dev.setFport_halts (p : Nat) (x : FabPort) : (d.setFport p x).halts = d.halts := rfl
@[simp] theorem Dev.setFport_snapReq (p : Nat) (x : FabPort) : (d.setFport p x).snapReq = d.snapReq := rfl
@[simp] theorem Dev.setFport_cut (p : Nat) (x : FabPort) : (d.setFport p x).cut = d.cut := rfl
@[simp] theorem Dev.setFport_lastFault (p : Nat) (x : FabPort) : (d.setFport p x).lastFault = d.lastFault := rfl
@[simp] theorem Dev.setFport_boundsSeen (p : Nat) (x : FabPort) : (d.setFport p x).boundsSeen = d.boundsSeen := rfl
@[simp] theorem Dev.setFport_cfg (p : Nat) (x : FabPort) : (d.setFport p x).cfg = d.cfg := rfl
@[simp] theorem Dev.setFport_portA (p : Nat) (x : FabPort) : (d.setFport p x).portA = d.portA := rfl
@[simp] theorem Dev.setFport_portB (p : Nat) (x : FabPort) : (d.setFport p x).portB = d.portB := rfl
@[simp] theorem Dev.setFport_sideband (p : Nat) (x : FabPort) : (d.setFport p x).sideband = d.sideband := rfl
@[simp] theorem Dev.setFport_flash (p : Nat) (x : FabPort) : (d.setFport p x).flash = d.flash := rfl
@[simp] theorem Dev.setFport_boot (p : Nat) (x : FabPort) : (d.setFport p x).boot = d.boot := rfl
@[simp] theorem Dev.setFport_recorder (p : Nat) (x : FabPort) : (d.setFport p x).recorder = d.recorder := rfl
@[simp] theorem Dev.setFport_monLast (p : Nat) (x : FabPort) : (d.setFport p x).monLast = d.monLast := rfl
@[simp] theorem Dev.setFport_sched (p : Nat) (x : FabPort) : (d.setFport p x).sched = d.sched := rfl
@[simp] theorem Dev.setFport_posSMap (p : Nat) (x : FabPort) : (d.setFport p x).posSMap = d.posSMap := rfl
@[simp] theorem Dev.setFport_xfer (p : Nat) (x : FabPort) : (d.setFport p x).xfer = d.xfer := rfl
@[simp] theorem Dev.setFport_atsA (p : Nat) (x : FabPort) : (d.setFport p x).atsA = d.atsA := rfl
@[simp] theorem Dev.setFport_atsB (p : Nat) (x : FabPort) : (d.setFport p x).atsB = d.atsB := rfl
@[simp] theorem Dev.setFport_inject (p : Nat) (x : FabPort) : (d.setFport p x).inject = d.inject := rfl
@[simp] theorem Dev.setFport_landed (p : Nat) (x : FabPort) : (d.setFport p x).landed = d.landed := rfl
@[simp] theorem Dev.setFport_gradPort (p : Nat) (x : FabPort) : (d.setFport p x).gradPort = d.gradPort := rfl
@[simp] theorem Dev.setFport_mEng (p : Nat) (x : FabPort) : (d.setFport p x).mEng = d.mEng := rfl
@[simp] theorem Dev.setFport_vEng (p : Nat) (x : FabPort) : (d.setFport p x).vEng = d.vEng := rfl
@[simp] theorem Dev.setFport_sEng (p : Nat) (x : FabPort) : (d.setFport p x).sEng = d.sEng := rfl
@[simp] theorem Dev.setFport_ring (p : Nat) (x : FabPort) : (d.setFport p x).ring = d.ring := rfl
@[simp] theorem Dev.setFport_net (p : Nat) (x : FabPort) : (d.setFport p x).net = d.net := rfl
@[simp] theorem Dev.setFport_nodes (p : Nat) (x : FabPort) : (d.setFport p x).nodes = d.nodes := rfl
@[simp] theorem Dev.setFport_dyn (p : Nat) (x : FabPort) : (d.setFport p x).dyn = d.dyn := rfl
@[simp] theorem Dev.setFport_netPorts (p : Nat) (x : FabPort) : (d.setFport p x).netPorts = d.netPorts := rfl
@[simp] theorem Dev.setFport_nextReq (p : Nat) (x : FabPort) : (d.setFport p x).nextReq = d.nextReq := rfl
@[simp] theorem Dev.setFport_tags (p : Nat) (x : FabPort) : (d.setFport p x).tags = d.tags := rfl
@[simp] theorem Dev.setFport_upd (p : Nat) (x : FabPort) : (d.setFport p x).upd = d.upd := rfl
@[simp] theorem Dev.setFport_updSent (p : Nat) (x : FabPort) : (d.setFport p x).updSent = d.updSent := rfl
@[simp] theorem Dev.setFport_scrub (p : Nat) (x : FabPort) : (d.setFport p x).scrub = d.scrub := rfl
@[simp] theorem Dev.setFport_banks (p : Nat) (x : FabPort) : (d.setFport p x).banks = d.banks := rfl
@[simp] theorem Dev.setFport_errs (p : Nat) (x : FabPort) : (d.setFport p x).errs = d.errs := rfl
@[simp] theorem Dev.setFport_ueSeen (p : Nat) (x : FabPort) : (d.setFport p x).ueSeen = d.ueSeen := rfl
@[simp] theorem Dev.setFport_retraining (p : Nat) (x : FabPort) : (d.setFport p x).retraining = d.retraining := rfl
@[simp] theorem Dev.setFport_wide8 (p : Nat) (x : FabPort) : (d.setFport p x).wide8 = d.wide8 := rfl
@[simp] theorem Dev.setFport_clocks (p : Nat) (x : FabPort) : (d.setFport p x).clocks = d.clocks := rfl
@[simp] theorem Dev.setFport_snaps (p : Nat) (x : FabPort) : (d.setFport p x).snaps = d.snaps := rfl
@[simp] theorem Dev.setFport_nonce (p : Nat) (x : FabPort) : (d.setFport p x).nonce = d.nonce := rfl
@[simp] theorem Dev.setFport_gen (p : Nat) (x : FabPort) : (d.setFport p x).gen = d.gen := rfl
@[simp] theorem Dev.setFport_out (p : Nat) (x : FabPort) : (d.setFport p x).out = d.out := rfl

/-! ### setPort -/
@[simp] theorem Dev.setPort_regs (p : Port) (x : HostPort) : (d.setPort p x).regs = d.regs := by cases p <;> rfl
@[simp] theorem Dev.setPort_mem (p : Port) (x : HostPort) : (d.setPort p x).mem = d.mem := by cases p <;> rfl
@[simp] theorem Dev.setPort_run (p : Port) (x : HostPort) : (d.setPort p x).run = d.run := by cases p <;> rfl
@[simp] theorem Dev.setPort_tripped (p : Port) (x : HostPort) : (d.setPort p x).tripped = d.tripped := by cases p <;> rfl
@[simp] theorem Dev.setPort_claim (p : Port) (x : HostPort) : (d.setPort p x).claim = d.claim := by cases p <;> rfl
@[simp] theorem Dev.setPort_long (p : Port) (x : HostPort) : (d.setPort p x).long = d.long := by cases p <;> rfl
@[simp] theorem Dev.setPort_halts (p : Port) (x : HostPort) : (d.setPort p x).halts = d.halts := by cases p <;> rfl
@[simp] theorem Dev.setPort_snapReq (p : Port) (x : HostPort) : (d.setPort p x).snapReq = d.snapReq := by cases p <;> rfl
@[simp] theorem Dev.setPort_cut (p : Port) (x : HostPort) : (d.setPort p x).cut = d.cut := by cases p <;> rfl
@[simp] theorem Dev.setPort_lastFault (p : Port) (x : HostPort) : (d.setPort p x).lastFault = d.lastFault := by cases p <;> rfl
@[simp] theorem Dev.setPort_boundsSeen (p : Port) (x : HostPort) : (d.setPort p x).boundsSeen = d.boundsSeen := by cases p <;> rfl
@[simp] theorem Dev.setPort_cfg (p : Port) (x : HostPort) : (d.setPort p x).cfg = d.cfg := by cases p <;> rfl
@[simp] theorem Dev.setPort_sideband (p : Port) (x : HostPort) : (d.setPort p x).sideband = d.sideband := by cases p <;> rfl
@[simp] theorem Dev.setPort_flash (p : Port) (x : HostPort) : (d.setPort p x).flash = d.flash := by cases p <;> rfl
@[simp] theorem Dev.setPort_boot (p : Port) (x : HostPort) : (d.setPort p x).boot = d.boot := by cases p <;> rfl
@[simp] theorem Dev.setPort_recorder (p : Port) (x : HostPort) : (d.setPort p x).recorder = d.recorder := by cases p <;> rfl
@[simp] theorem Dev.setPort_monLast (p : Port) (x : HostPort) : (d.setPort p x).monLast = d.monLast := by cases p <;> rfl
@[simp] theorem Dev.setPort_sched (p : Port) (x : HostPort) : (d.setPort p x).sched = d.sched := by cases p <;> rfl
@[simp] theorem Dev.setPort_posSMap (p : Port) (x : HostPort) : (d.setPort p x).posSMap = d.posSMap := by cases p <;> rfl
@[simp] theorem Dev.setPort_xfer (p : Port) (x : HostPort) : (d.setPort p x).xfer = d.xfer := by cases p <;> rfl
@[simp] theorem Dev.setPort_atsA (p : Port) (x : HostPort) : (d.setPort p x).atsA = d.atsA := by cases p <;> rfl
@[simp] theorem Dev.setPort_atsB (p : Port) (x : HostPort) : (d.setPort p x).atsB = d.atsB := by cases p <;> rfl
@[simp] theorem Dev.setPort_inject (p : Port) (x : HostPort) : (d.setPort p x).inject = d.inject := by cases p <;> rfl
@[simp] theorem Dev.setPort_landed (p : Port) (x : HostPort) : (d.setPort p x).landed = d.landed := by cases p <;> rfl
@[simp] theorem Dev.setPort_gradPort (p : Port) (x : HostPort) : (d.setPort p x).gradPort = d.gradPort := by cases p <;> rfl
@[simp] theorem Dev.setPort_mEng (p : Port) (x : HostPort) : (d.setPort p x).mEng = d.mEng := by cases p <;> rfl
@[simp] theorem Dev.setPort_vEng (p : Port) (x : HostPort) : (d.setPort p x).vEng = d.vEng := by cases p <;> rfl
@[simp] theorem Dev.setPort_sEng (p : Port) (x : HostPort) : (d.setPort p x).sEng = d.sEng := by cases p <;> rfl
@[simp] theorem Dev.setPort_ring (p : Port) (x : HostPort) : (d.setPort p x).ring = d.ring := by cases p <;> rfl
@[simp] theorem Dev.setPort_net (p : Port) (x : HostPort) : (d.setPort p x).net = d.net := by cases p <;> rfl
@[simp] theorem Dev.setPort_nodes (p : Port) (x : HostPort) : (d.setPort p x).nodes = d.nodes := by cases p <;> rfl
@[simp] theorem Dev.setPort_dyn (p : Port) (x : HostPort) : (d.setPort p x).dyn = d.dyn := by cases p <;> rfl
@[simp] theorem Dev.setPort_netPorts (p : Port) (x : HostPort) : (d.setPort p x).netPorts = d.netPorts := by cases p <;> rfl
@[simp] theorem Dev.setPort_nextReq (p : Port) (x : HostPort) : (d.setPort p x).nextReq = d.nextReq := by cases p <;> rfl
@[simp] theorem Dev.setPort_tags (p : Port) (x : HostPort) : (d.setPort p x).tags = d.tags := by cases p <;> rfl
@[simp] theorem Dev.setPort_upd (p : Port) (x : HostPort) : (d.setPort p x).upd = d.upd := by cases p <;> rfl
@[simp] theorem Dev.setPort_updSent (p : Port) (x : HostPort) : (d.setPort p x).updSent = d.updSent := by cases p <;> rfl
@[simp] theorem Dev.setPort_scrub (p : Port) (x : HostPort) : (d.setPort p x).scrub = d.scrub := by cases p <;> rfl
@[simp] theorem Dev.setPort_banks (p : Port) (x : HostPort) : (d.setPort p x).banks = d.banks := by cases p <;> rfl
@[simp] theorem Dev.setPort_errs (p : Port) (x : HostPort) : (d.setPort p x).errs = d.errs := by cases p <;> rfl
@[simp] theorem Dev.setPort_ueSeen (p : Port) (x : HostPort) : (d.setPort p x).ueSeen = d.ueSeen := by cases p <;> rfl
@[simp] theorem Dev.setPort_retraining (p : Port) (x : HostPort) : (d.setPort p x).retraining = d.retraining := by cases p <;> rfl
@[simp] theorem Dev.setPort_wide8 (p : Port) (x : HostPort) : (d.setPort p x).wide8 = d.wide8 := by cases p <;> rfl
@[simp] theorem Dev.setPort_clocks (p : Port) (x : HostPort) : (d.setPort p x).clocks = d.clocks := by cases p <;> rfl
@[simp] theorem Dev.setPort_fab (p : Port) (x : HostPort) : (d.setPort p x).fab = d.fab := by cases p <;> rfl
@[simp] theorem Dev.setPort_snaps (p : Port) (x : HostPort) : (d.setPort p x).snaps = d.snaps := by cases p <;> rfl
@[simp] theorem Dev.setPort_nonce (p : Port) (x : HostPort) : (d.setPort p x).nonce = d.nonce := by cases p <;> rfl
@[simp] theorem Dev.setPort_gen (p : Port) (x : HostPort) : (d.setPort p x).gen = d.gen := by cases p <;> rfl
@[simp] theorem Dev.setPort_out (p : Port) (x : HostPort) : (d.setPort p x).out = d.out := by cases p <;> rfl

/-! ### The fields they write -/
@[simp] theorem Dev.setWord_regs (r : RegName) (i : List Nat) (w : Word) :
    (d.setWord r i w).regs = Tab.put (regDefault r i) d.regs (regOffset r i) w := rfl
@[simp] theorem Dev.emit_out (o : Out) : (d.emit o).out = o :: d.out := rfl
@[simp] theorem Dev.withSched_sched (f : Sched → Sched) : (d.withSched f).sched = f d.sched := rfl
@[simp] theorem Dev.withHold_sched (f : Hold → Hold) :
    (d.withHold f).sched = { d.sched with hold := f d.sched.hold } := rfl
@[simp] theorem Dev.mapClocks_clocks (f : Clocks → Clocks) : (d.mapClocks f).clocks = f d.clocks := rfl
@[simp] theorem Dev.mapFab_fab (f : Fabric → Fabric) : (d.mapFab f).fab = f d.fab := rfl
@[simp] theorem Dev.setPort_port_same (p : Port) (x : HostPort) : (d.setPort p x).port p = x := by cases p <;> rfl

end Sys2Proof.Machine
end

