-- ==== Sys2Proof/Laws/Ops.lean ====
section
/-! SUPPORT. Everything a shared operation can change: for each, one lemma that writes its result as the state before it with a
few fields replaced. A proof about another field cites it and unfolds nothing. -/
namespace Sys2Proof.Machine

variable (d : Dev)

/-! ## Counters, triggers, sticky fields -/

theorem Dev.setWord_changes (r : RegName) (i : List Nat) (w : Word) : ∃ g, d.setWord r i w = { d with regs := g } := ⟨_, rfl⟩
theorem Dev.setF_changes (f : Field) (i : List Nat) (v : Nat) : ∃ g, d.setF f i v = { d with regs := g } := ⟨_, rfl⟩
theorem Dev.emit_changes (o : Out) : ∃ x, d.emit o = { d with out := x } := ⟨_, rfl⟩

theorem Dev.noteWrap_changes (r : RegName) (i : List Nat) : ∃ g, d.noteWrap r i = { d with regs := g } := by
  unfold Dev.noteWrap; split <;> exact ⟨_, rfl⟩

theorem Dev.loseTrigger_changes : ∃ g q, d.loseTrigger = { d with regs := g, recorder := q } := by
  unfold Dev.loseTrigger
  simp only []
  split
  · obtain ⟨g, h⟩ := Dev.noteWrap_changes
      { (d.bump .rREC_LOST_CNT [] 1).1 with recorder := { (d.bump .rREC_LOST_CNT [] 1).1.recorder with lost := true } }
      .rREC_LOST_CNT []
    exact ⟨g, _, h⟩
  · exact ⟨_, _, rfl⟩

theorem Dev.fire_changes (s u : Nat) : ∃ g q, d.fire s u = { d with regs := g, recorder := q } := by
  unfold Dev.fire
  split
  · exact ⟨_, _, rfl⟩
  · split
    · exact d.loseTrigger_changes
    · exact ⟨_, _, rfl⟩

theorem Dev.count_changes (r : RegName) (i : List Nat) (n : Nat) :
    ∃ g q, d.count r i n = { d with regs := g, recorder := q } := by
  unfold Dev.count
  simp only []
  split
  · obtain ⟨g, h⟩ := (d.bump r i n).1.noteWrap_changes r i
    obtain ⟨g', q', h'⟩ := Dev.fire_changes ((d.bump r i n).1.noteWrap r i) 27 0
    rw [h] at h'
    exact ⟨g', q', by rw [h, h']; rfl⟩
  · exact ⟨_, _, rfl⟩

theorem Dev.maxF_changes (f : Field) (i : List Nat) (v : Nat) : ∃ g, d.maxF f i v = { d with regs := g } := by
  unfold Dev.maxF; split <;> exact ⟨_, rfl⟩

/-! ## Ports -/

theorem Dev.setPort_changes (p : Port) (x : HostPort) : ∃ a b, d.setPort p x = { d with portA := a, portB := b } := by
  cases p <;> exact ⟨_, _, rfl⟩

theorem Dev.writeEntry_changes (p : Port) (k : Nat) (irq : Bool) (m : Reply) :
    ∃ a b o, d.writeEntry p k irq m = { d with portA := a, portB := b, out := o } := by
  unfold Dev.writeEntry
  simp only []
  generalize HostPort.setRing _ _ _ = X
  generalize Out.reply _ _ _ _ _ = O
  obtain ⟨a, b, h⟩ := d.setPort_changes p X
  rw [h]
  split
  · generalize HostPort.signal _ _ = S
    obtain ⟨a', b', h'⟩ := Dev.setPort_changes (Dev.emit { d with portA := a, portB := b } O) p S.1
    rw [h']
    split <;> exact ⟨_, _, _, rfl⟩
  · exact ⟨_, _, _, rfl⟩

theorem Dev.replyHost_changes (p : Port) (k : Nat) (irq : Bool) (m : Reply) :
    ∃ a b o, d.replyHost p k irq m = { d with portA := a, portB := b, out := o } := by
  unfold Dev.replyHost
  simp only []
  split
  · exact ⟨_, _, _, rfl⟩
  · split
    · exact d.writeEntry_changes p k irq m
    · cases p <;> exact ⟨_, _, _, rfl⟩

theorem Dev.complete_changes (o : Owed) (st : Status) (res : Nat) :
    ∃ g q a b sb out, d.complete o st res =
      { d with regs := g, recorder := q, portA := a, portB := b, sideband := sb, out := out } := by
  obtain ⟨g, q, h⟩ := d.count_changes .rHST_CMDS [] 1
  unfold Dev.complete
  simp only [h]
  split
  · rename_i p _
    split
    · obtain ⟨a, b, h'⟩ := Dev.setPort_changes { d with regs := g, recorder := q } p
        { Dev.port { d with regs := g, recorder := q } p with
          gone := (Dev.port { d with regs := g, recorder := q } p).gone.filter (· ≠ o.seq) }
      exact ⟨_, _, _, _, _, _, h'⟩
    · obtain ⟨a, b, ou, h'⟩ := Dev.replyHost_changes { d with regs := g, recorder := q } p o.hdr.ring.val o.hdr.irq
        ⟨o.hdr.tag.toNat, o.opc, st, false, false, o.hdr.ring.val, 0, o.seq, res % 2 ^ 128⟩
      exact ⟨_, _, _, _, _, _, h'⟩
  · exact ⟨_, _, _, _, _, _, rfl⟩

theorem Dev.eventHost_changes (p : Port) (m : Reply) :
    ∃ g q a b out, d.eventHost p m = { d with regs := g, recorder := q, portA := a, portB := b, out := out } := by
  unfold Dev.eventHost
  simp only []
  split
  · exact ⟨_, _, _, _, _, rfl⟩
  · split
    · obtain ⟨a, b, h⟩ := d.setPort_changes p { d.port p with lostMark := false }
      obtain ⟨a', b', o', h'⟩ := Dev.writeEntry_changes (d.setPort p { d.port p with lostMark := false }) p 0 true
        { m with lost := (d.port p).lostMark }
      rw [h] at h'
      exact ⟨_, _, _, _, _, by rw [h, h']⟩
    · split
      · obtain ⟨a, b, h⟩ := d.setPort_changes p { d.port p with events := (d.port p).events ++ [m] }
        exact ⟨_, _, _, _, _, h⟩
      · obtain ⟨a, b, h⟩ := d.setPort_changes p { d.port p with evLost := (d.port p).evLost + 1, lostMark := true }
        obtain ⟨g, q, h'⟩ := Dev.count_changes
          (d.setPort p { d.port p with evLost := (d.port p).evLost + 1, lostMark := true }) .rHST_EVENTS_LOST [] 1
        rw [h] at h'
        exact ⟨_, _, _, _, _, by rw [h, h']⟩

theorem Dev.eventSideband_changes (m : Reply) :
    ∃ g q sb out, d.eventSideband m = { d with regs := g, recorder := q, sideband := sb, out := out } := by
  unfold Dev.eventSideband
  split
  · exact ⟨_, _, _, _, rfl⟩
  · split
    · exact ⟨_, _, _, _, rfl⟩
    · obtain ⟨g, q, h⟩ := Dev.count_changes { d with sideband := { d.sideband with lostMark := true } } .rHST_EVENTS_LOST [] 1
      exact ⟨_, _, _, _, h⟩

theorem Dev.event_changes (dest : EventTo) (kind : Nat) (st : Status) (res : Nat) :
    ∃ g q a b sb out, d.event dest kind st res =
      { d with regs := g, recorder := q, portA := a, portB := b, sideband := sb, out := out } := by
  unfold Dev.event
  simp only []
  generalize hm : (⟨0xFFFF, 0, st, true, false, 0xFF, kind, d.takeSeq.1, res % 2 ^ 128⟩ : Reply) = m
  have h0 : ∃ g, d.takeSeq.2 = { d with regs := g } := ⟨_, rfl⟩
  obtain ⟨g0, h0⟩ := h0
  rw [h0]
  split
  · obtain ⟨g1, q1, a1, b1, o1, h1⟩ := Dev.eventHost_changes { d with regs := g0 } .ha m
    rw [h1]
    obtain ⟨g2, q2, a2, b2, o2, h2⟩ := Dev.eventHost_changes
      { d with regs := g1, recorder := q1, portA := a1, portB := b1, out := o1 } .hb m
    rw [h2]
    obtain ⟨g3, q3, s3, o3, h3⟩ := Dev.eventSideband_changes
      { d with regs := g2, recorder := q2, portA := a2, portB := b2, out := o2 } m
    exact ⟨_, _, _, _, _, _, h3⟩
  · rename_i p
    obtain ⟨g1, q1, a1, b1, o1, h1⟩ := Dev.eventHost_changes { d with regs := g0 } p m
    exact ⟨_, _, _, _, _, _, h1⟩
  · obtain ⟨g3, q3, s3, o3, h3⟩ := Dev.eventSideband_changes { d with regs := g0 } m
    exact ⟨_, _, _, _, _, _, h3⟩

theorem Dev.enter_changes (s : PartState) :
    ∃ g q a b sb out, d.enter s =
      { d with run := s, regs := g, recorder := q, portA := a, portB := b, sideband := sb, out := out } := by
  unfold Dev.enter
  split
  · rename_i h; subst h; exact ⟨_, _, _, _, _, _, rfl⟩
  · simp only []
    split
    · exact ⟨_, _, _, _, _, _, rfl⟩
    · obtain ⟨g, q, a, b, sb, o, h⟩ := Dev.event_changes { d with run := s } .all 0x01 .ok
        (s.code + d.run.code * 2 ^ 8 + d.sched.shown * 2 ^ 64)
      rw [h]
      obtain ⟨g', q', h'⟩ := Dev.fire_changes
        { d with run := s, regs := g, recorder := q, portA := a, portB := b, sideband := sb, out := o } 0 s.code
      exact ⟨_, _, _, _, _, _, h'⟩

/-! ## Holds and faults -/

theorem Dev.joinHold_changes (c : Nat) : ∃ g q s, d.joinHold c = { d with regs := g, recorder := q, sched := s } := by
  unfold Dev.joinHold
  simp only []
  split
  · obtain ⟨g, q, h⟩ := Dev.count_changes (d.withHold fun h => { h with causeSet := putBits h.causeSet c c 1 })
      .rSCH_HOLD_CNT [c] 1
    exact ⟨_, _, _, h⟩
  · exact ⟨_, _, _, rfl⟩

theorem Dev.startHold_changes (c f : Nat) :
    ∃ g q s, d.startHold c f = { d with regs := g, recorder := q, sched := s } := by
  unfold Dev.startHold
  simp only []
  split
  · split
    · exact ⟨_, _, _, rfl⟩
    · obtain ⟨g, q, s, h⟩ := d.joinHold_changes c
      rw [h]
      exact ⟨_, _, _, rfl⟩
  · split
    · obtain ⟨g, q, h⟩ := Dev.fire_changes (d.withHold fun h =>
        { h with freeze := some f, held := false, releasing := none, isHold := true, cause := c,
                 causeSet := 2 ^ c, flags := d.holdFlags, freezeReg := f, periods := 0 }) 2 c
      exact ⟨_, _, _, h⟩
    · exact ⟨_, _, _, rfl⟩

theorem Dev.stopFault_changes (f : FaultInfo) :
    ∃ g q s, d.stopFault f = { d with regs := g, recorder := q, sched := s } := by
  obtain ⟨g, q, z, h⟩ : ∃ g q z, (d.fire 1 f.code).withSched (fun s => { s with stopped := f.stops.toList ++ s.stopped }) =
      { d with regs := g, recorder := q, sched := z } := by
    obtain ⟨g, q, h⟩ := d.fire_changes 1 f.code
    exact ⟨g, q, _, by rw [h]; rfl⟩
  unfold Dev.stopFault
  simp only [h]
  split
  · exact ⟨_, _, _, rfl⟩
  · split
    · obtain ⟨g1, h1⟩ := Dev.setWord_changes { d with regs := g, recorder := q, sched := z } .rREC_FAULT []
        (BitVec.ofNat 64 (f.word false))
      obtain ⟨g2, h2⟩ := Dev.setWord_changes { d with regs := g1, recorder := q, sched := z } .rREC_FAULT_SC []
        (BitVec.ofNat 64 z.sc)
      simp only [h1, h2]
      split <;> exact ⟨_, _, _, rfl⟩
    · split
      · obtain ⟨g1, h1⟩ := Dev.setWord_changes { d with regs := g, recorder := q, sched := z } .rREC_FAULT []
          (BitVec.ofNat 64 (f.word true))
        exact ⟨_, _, _, h1⟩
      · obtain ⟨g1, h1⟩ := Dev.setF_changes { d with regs := g, recorder := q, sched := z } fREC_FAULT_MORE [] 1
        exact ⟨_, _, _, h1⟩

theorem Dev.violation_changes (c y k p : Nat) :
    ∃ g q s, d.violation c y k p = { d with regs := g, recorder := q, sched := s } := by
  unfold Dev.violation
  split
  · exact ⟨_, _, _, rfl⟩
  · simp only []
    split
    · obtain ⟨g, h⟩ := d.setF_changes fSCH_VIOL_STAT_MORE [] 1
      rw [h]
      obtain ⟨g, q, s, h⟩ := Dev.stopFault_changes { d with regs := g }
        { code := 1, detail := c, yard := y, kind := k, pos := p }
      exact ⟨g, q, s, h⟩
    · generalize BitVec.ofNat 64 _ = w
      generalize BitVec.ofNat 64 d.sched.sc = w'
      obtain ⟨g, h⟩ := d.setWord_changes .rSCH_VIOL_STAT [] w
      rw [h]
      obtain ⟨g', h'⟩ := Dev.setWord_changes { d with regs := g } .rSCH_VIOL_SC [] w'
      rw [h']
      obtain ⟨g, q, s, h⟩ := Dev.stopFault_changes { d with regs := g' } { code := 1, detail := c, yard := y, kind := k, pos := p }
      exact ⟨g, q, s, h⟩

theorem Dev.boundsFault_changes (f : FaultInfo) (a : Nat) :
    ∃ g q s b, d.boundsFault f a = { d with regs := g, recorder := q, sched := s, boundsSeen := b } := by
  unfold Dev.boundsFault
  simp only []
  split
  · split
    · obtain ⟨g, q, s, h⟩ := Dev.stopFault_changes d { f with code := 9 }
      exact ⟨g, q, s, _, h⟩
    · obtain ⟨g, q, s, h⟩ := Dev.stopFault_changes
        ({ d with boundsSeen := true }.setWord .rREC_BOUNDS_ADDR [] (BitVec.ofNat 64 a)) { f with code := 9 }
      exact ⟨g, q, s, _, h⟩
  · obtain ⟨g, q, h⟩ := d.count_changes .rREC_BOUNDS_CNT [] 1
    rw [h]
    split
    · obtain ⟨g', q', h'⟩ := Dev.fire_changes { d with regs := g, recorder := q } 29 f.detail
      exact ⟨_, _, _, _, h'⟩
    · obtain ⟨g', q', h'⟩ := Dev.fire_changes
        (Dev.setWord { d with regs := g, recorder := q } .rREC_BOUNDS_ADDR [] (BitVec.ofNat 64 a)) 29 f.detail
      exact ⟨_, _, _, _, h'⟩

theorem Dev.takeEntry_changes (y due c : Nat) (a : Option Nat) (k p u : Nat) :
    ∃ g q s, (d.takeEntry y due c a k p u).2 = { d with regs := g, recorder := q, sched := s } := by
  unfold Dev.takeEntry
  split
  · obtain ⟨g, q, s, h⟩ := d.violation_changes 4 y k p
    rw [h]
    exact ⟨_, _, _, rfl⟩
  · exact ⟨_, _, _, rfl⟩

/-! ## Error correction -/

theorem Dev.recordEcc_changes (r : RegName) (i : List Nat) (w : Nat) : ∃ g, d.recordEcc r i w = { d with regs := g } := by
  unfold Dev.recordEcc; split <;> exact ⟨_, rfl⟩

theorem Dev.firstUe_changes (p : Nat) (r : RegName) (i : List Nat) :
    ∃ g u, d.firstUe p r i = { d with regs := g, ueSeen := u } := by
  unfold Dev.firstUe; split <;> exact ⟨_, _, rfl⟩

/-- A trigger that a flag of a register enables. -/
theorem Dev.fireIf_changes (b : Bool) (s u : Nat) : ∃ g q, (if b = true then d.fire s u else d) = { d with regs := g, recorder := q } := by
  split
  · exact d.fire_changes s u
  · exact ⟨_, _, rfl⟩

theorem Dev.tierEcc_changes (uncorr scrub : Bool) (u lane a : Nat) :
    ∃ g q s us, d.tierEcc uncorr scrub u lane a = { d with regs := g, recorder := q, sched := s, ueSeen := us } := by
  unfold Dev.tierEcc
  simp only []
  generalize (if u % 5 < 3 then pseudoChannel a else lane % 64) = l
  split
  · obtain ⟨g, q, h⟩ := d.count_changes .rMEM_CE_CNT [u] 1
    obtain ⟨g1, h1⟩ := Dev.recordEcc_changes { d with regs := g, recorder := q } .rMEM_ECC_CE [u]
      (a / 64 * 64 % 2 ^ 48 + l * 2 ^ 54 + b2n scrub * 2 ^ 61)
    rw [h, h1]
    obtain ⟨g2, q2, h2⟩ := Dev.fireIf_changes { d with regs := g1, recorder := q }
      (Dev.flag { d with regs := g1, recorder := q } fMEM_CTL_CE_EVENT [u]) 10 u
    exact ⟨_, _, _, _, h2⟩
  · obtain ⟨g, q, h⟩ := d.count_changes .rMEM_UE_CNT [u] 1
    obtain ⟨g1, h1⟩ := Dev.recordEcc_changes { d with regs := g, recorder := q } .rMEM_ECC_UE [u]
      (a / 64 * 64 % 2 ^ 48 + l * 2 ^ 54 + b2n scrub * 2 ^ 61)
    rw [h, h1]
    obtain ⟨g2, u2, h2⟩ := Dev.firstUe_changes { d with regs := g1, recorder := q } (4 + u) .rMEM_ECC_UE_SC [u]
    rw [h2]
    obtain ⟨g3, q3, h3⟩ := Dev.fireIf_changes { d with regs := g2, recorder := q, ueSeen := u2 }
      (Dev.flag { d with regs := g2, recorder := q, ueSeen := u2 } fMEM_CTL_UE_EVENT [u]) 11 u
    rw [h3]
    split
    · obtain ⟨g4, q4, s4, h4⟩ := Dev.stopFault_changes { d with regs := g3, recorder := q3, ueSeen := u2 }
        { code := 4, detail := if u % 5 < 3 then 0 else 1, yard := u / 5, unit := u }
      exact ⟨_, _, _, _, h4⟩
    · exact ⟨_, _, _, _, rfl⟩

/-- An on-chip word's error, met by a read or a merge, changes no byte of memory. -/
theorem Dev.onchipEcc_changes (uncorr : Bool) (y sp p o : Nat) :
    ∃ g q s us, d.onchipEcc uncorr false y sp p o = { d with regs := g, recorder := q, sched := s, ueSeen := us } := by
  unfold Dev.onchipEcc
  simp only [Bool.false_and, Bool.false_eq_true, if_false, Bool.not_false]
  generalize o / 8 * 8 % 2 ^ 32 + bankOf sp o * 2 ^ 47 + p % 32 * 2 ^ 53 + sp * 2 ^ 58 + b2n false * 2 ^ 61 = w
  split
  · obtain ⟨g, q, h⟩ := d.count_changes .rOCM_CE_CNT [y] 1
    obtain ⟨g1, h1⟩ := Dev.recordEcc_changes { d with regs := g, recorder := q } .rOCM_ECC_CE [y] w
    rw [h, h1]
    obtain ⟨g2, q2, h2⟩ := Dev.fireIf_changes { d with regs := g1, recorder := q }
      (Dev.flag { d with regs := g1, recorder := q } fOCM_CTL_CE_EVENT [y]) 8 y
    exact ⟨_, _, _, _, h2⟩
  · obtain ⟨g, q, h⟩ := d.count_changes .rOCM_UE_CNT [y] 1
    obtain ⟨g1, h1⟩ := Dev.recordEcc_changes { d with regs := g, recorder := q } .rOCM_ECC_UE [y] w
    rw [h, h1]
    obtain ⟨g2, u2, h2⟩ := Dev.firstUe_changes { d with regs := g1, recorder := q } y .rOCM_ECC_UE_SC [y]
    rw [h2]
    obtain ⟨g3, q3, h3⟩ := Dev.fireIf_changes { d with regs := g2, recorder := q, ueSeen := u2 }
      (Dev.flag { d with regs := g2, recorder := q, ueSeen := u2 } fOCM_CTL_UE_EVENT [y]) 9 y
    rw [h3]
    split
    · obtain ⟨g4, q4, s4, h4⟩ := Dev.stopFault_changes { d with regs := g3, recorder := q3, ueSeen := u2 }
        { code := 3, detail := sp, yard := y, pos := p,
          kind := if sp = 0 then 3 else if sp ≤ 2 then 0 else if sp ≤ 4 then 1 else 2 }
      exact ⟨_, _, _, _, h4⟩
    · exact ⟨_, _, _, _, rfl⟩

theorem Dev.meetWord_changes (k : Nat) : ∃ g q s us es, d.meetWord false k =
    { d with regs := g, recorder := q, sched := s, ueSeen := us, errs := es } := by
  unfold Dev.meetWord
  cases Tab.find d.errs k with
  | none => exact ⟨_, _, _, _, _, rfl⟩
  | some w =>
    have he (b : Bool) (es : List (Nat × ErrWord)) :
        ∃ es', (if b = true then d else { d with errs := es }) = { d with errs := es' } := by
      cases b <;> exact ⟨_, rfl⟩
    cases tierController k with
    | some u =>
      obtain ⟨es, h⟩ := he w.uncorr (Tab.erase d.errs k)
      obtain ⟨g, q, s, us, h'⟩ := Dev.tierEcc_changes { d with errs := es } w.uncorr false u w.lane k
      exact ⟨g, q, s, us, es, by simp only [h, h']⟩
    | none =>
      obtain ⟨es, h⟩ := he w.uncorr (Tab.insert d.errs k { w with seen := true })
      obtain ⟨g, q, s, us, h'⟩ := Dev.onchipEcc_changes { d with errs := es } w.uncorr (physPlace k).1 (physPlace k).2.1
        (physPlace k).2.2.1 (physPlace k).2.2.2
      exact ⟨g, q, s, us, es, by simp only [h, h']⟩

/-- The errors behind some bytes are met: memory keeps its bytes. -/
theorem Dev.meet_changes (l : List Nat) : ∃ g q s us es, d.meet l =
    { d with regs := g, recorder := q, sched := s, ueSeen := us, errs := es } := by
  unfold Dev.meet
  generalize d.errWords l = ks
  induction ks generalizing d with
  | nil => exact ⟨_, _, _, _, _, rfl⟩
  | cons k ks ih =>
    obtain ⟨g, q, s, us, es, h⟩ := d.meetWord_changes k
    obtain ⟨g', q', s', us', es', h'⟩ := ih (d.meetWord false k)
    rw [List.foldl_cons, h', h]
    exact ⟨_, _, _, _, _, rfl⟩

/-- Where no word of the part holds an error, a read meets none. -/
@[simp] theorem Dev.meet_clean (l : List Nat) (h : d.errs = []) : d.meet l = d := by
  simp [Dev.meet, Dev.errWords, h]

theorem Dev.readAt_changes (l : List Nat) : ∃ g q s us es n, (d.readAt l).2 =
    { d with regs := g, recorder := q, sched := s, ueSeen := us, errs := es, nonce := n } := by
  obtain ⟨g, q, s, us, es, h⟩ := d.meet_changes l
  unfold Dev.readAt
  simp only [h]
  split <;> exact ⟨_, _, _, _, _, _, rfl⟩

/-- Where no word holds an error and nothing is in flight, a read gives the bytes as they stand. -/
theorem Dev.readAt_still (l : List Nat) (h : d.errs = []) (h' : d.sched.inFlight = []) : d.readAt l = (l.map d.peek, d) := by
  simp [Dev.readAt, d.meet_clean l h, h']

/-! ## Engine memories -/

theorem Dev.gather_changes (f : FaultInfo) (y sp e : Nat) (l : List Nat) : ∃ g q s b us es n, (d.gather f y sp e l).2 =
    { d with regs := g, recorder := q, sched := s, boundsSeen := b, ueSeen := us, errs := es, nonce := n } := by
  unfold Dev.gather
  simp only []
  split
  · rename_i y' _ _
    obtain ⟨g, q, h⟩ := d.count_changes .rOCM_FENCED_DROP [y'] 1
    exact ⟨g, q, _, _, _, _, _, h⟩
  · rename_i a _
    obtain ⟨g, q, s, b, h⟩ := d.boundsFault_changes f a
    exact ⟨g, q, s, b, _, _, _, h⟩
  · split
    · obtain ⟨g, q, s, us, es, h⟩ := d.meet_changes (l.map (onchipAddr y sp e))
      exact ⟨_, _, _, _, _, _, _, h⟩
    · obtain ⟨g, q, s, us, es, n, h⟩ := d.readAt_changes (l.map (onchipAddr y sp e))
      split
      · rw [h]; exact ⟨_, _, _, _, _, _, _, rfl⟩
      · exact ⟨_, _, _, _, _, _, _, h⟩

theorem Dev.scatterTo_changes (f : FaultInfo) (y sp e lat : Nat) (ws : List (Nat × Nat × Nat)) :
    ∃ g q s b, d.scatterTo f y sp e lat ws = { d with regs := g, recorder := q, sched := s, boundsSeen := b } := by
  unfold Dev.scatterTo
  split
  · exact ⟨_, _, _, _, rfl⟩
  · split
    · rename_i y' _ _
      obtain ⟨g, q, h⟩ := d.count_changes .rOCM_FENCED_DROP [y'] 1
      exact ⟨g, q, _, _, h⟩
    · rename_i a _
      obtain ⟨g, q, s, b, h⟩ := d.boundsFault_changes f a
      exact ⟨g, q, s, b, h⟩
    · exact ⟨_, _, _, _, rfl⟩

end Sys2Proof.Machine
end

