-- ==== Sys2Proof/Laws/Arbiter.lean ====
section
/-! SUPPORT. The arbiter, once for every packet: what an accepted packet comes to. -/
namespace Sys2Proof.Machine

theorem Dev.seen_run (d : Dev) : d.seen.run = d.run := rfl
theorem Dev.seen_boot (d : Dev) : d.seen.boot = d.boot := rfl
theorem Dev.seen_claim (d : Dev) : d.seen.claim = d.claim := rfl
theorem Dev.seen_long (d : Dev) : d.seen.long = d.long := rfl

/-- An accepted packet comes to its command's own work (R319). -/
theorem Dev.command_of_accepts {d : Dev} {opc : Nat} {h : Hdr} (a : d.Accepts opc h) (work : Owed → Dev → Dev) :
    d.command opc h work = work (d.owed opc h) d.seen := by
  obtain ⟨⟨h1, h2, h3⟩, c, hc, h4, h5, h6⟩ := a
  have hb : ¬ (d.run = .boot ∧ (h.src ≠ .sideband ∨ d.boot.stage = 0)) := fun x =>
    x.2.elim (fun y => y (h2 x.1).1) (fun y => (h2 x.1).2 y)
  have hopc : c.opc = opc := by have := List.find?_some hc; simpa using this
  have e1 : d.takeSeq.2.boot.restarting = false := h3
  have e2 : (c.claim && decide (d.takeSeq.2.claim ≠ some h.src)) = false := by
    cases hcl : c.claim
    · rfl
    · simp [show d.takeSeq.2.claim = some h.src from h4 hcl]
  have e3 : c.accepts d.takeSeq.2.run = true := h5
  have e4 : ((c.long || c.alone) && d.takeSeq.2.long.isSome) = false := by
    cases hl : (c.long || c.alone)
    · rfl
    · have := h6 (by simpa using hl)
      simp [show d.takeSeq.2.long = none from this]
  simp only [Dev.command, hc, Dev.arbitrate, h1, hb, if_false, e1, e2, e3, e4, Bool.false_eq_true, Bool.not_true]
  rw [hopc]
  rfl

/-- A command whose meaning is one packet's work takes effect as that work does. -/
theorem takes_of {i : Instr} {opc : Nat} {h : Hdr} {P : Dev → Prop} {f : Owed → Dev → Dev} (work : Owed → Dev → Dev)
    (he : ∀ s : State, exec i s = .next { s with dev := s.dev.command opc h work }) (hw : ∀ o d, P d → work o d = f o d) :
    Takes i opc h P f := fun s a hp => by rw [Runs, he, Dev.command_of_accepts a, hw _ _ hp]

/-- The same for a command that completes at once. -/
theorem answers_of {i : Instr} {opc : Nat} {h : Hdr} {P : Dev → Prop} {st : Status} {res : Dev → Nat} {f : Dev → Dev}
    (work : Owed → Dev → Dev) (he : ∀ s : State, exec i s = .next { s with dev := s.dev.command opc h work })
    (hw : ∀ o d, P d → work o d = (f d).complete o st (res d)) : Answers i opc h P st res f := takes_of work he hw

end Sys2Proof.Machine
end

