-- ==== Sys2Proof/Laws/Memory.lean ====
section
/-! SUPPORT. Sparse tables and memory: reading after writing, and that every memory operation keeps the canonical form. -/
namespace Sys2Proof.Machine

variable {α : Type}

/-! ## Tables -/

@[simp] theorem Tab.find_insert_same (t : List (Nat × α)) (k : Nat) (v : α) : Tab.find (Tab.insert t k v) k = some v := by
  induction t with
  | nil => simp [Tab.insert, Tab.find]
  | cons c t ih =>
    obtain ⟨k', v'⟩ := c
    unfold Tab.insert
    split
    · simp [Tab.find]
    · split
      · simp [Tab.find]
      · simp [Tab.find, *]

theorem Tab.find_insert_other (t : List (Nat × α)) {k j : Nat} (v : α) (h : j ≠ k) :
    Tab.find (Tab.insert t k v) j = Tab.find t j := by
  induction t with
  | nil => simp [Tab.insert, Tab.find, h]
  | cons c t ih =>
    obtain ⟨k', v'⟩ := c
    unfold Tab.insert
    split
    · simp [Tab.find, h]
    · split
      · subst_vars; simp [Tab.find, h]
      · simp [Tab.find, ih]

theorem Tab.find_erase_other (t : List (Nat × α)) {k j : Nat} (h : j ≠ k) : Tab.find (Tab.erase t k) j = Tab.find t j := by
  induction t with
  | nil => rfl
  | cons c t ih =>
    obtain ⟨k', v'⟩ := c
    unfold Tab.erase
    split
    · subst_vars; simp [Tab.find, h, ih]
    · simp [Tab.find, ih]

/-- Every key of the table is larger than `lo`. -/
def Tab.above (lo : Nat) (t : List (Nat × α)) : Prop := ∀ c ∈ t, lo < c.1

theorem Tab.rising_cons (k : Nat) (v : α) (t : List (Nat × α)) :
    Tab.rising ((k, v) :: t) = true ↔ Tab.above k t ∧ Tab.rising t = true := by
  induction t generalizing k v with
  | nil => simp [Tab.rising, Tab.above]
  | cons c t ih =>
    obtain ⟨k', v'⟩ := c
    rw [Tab.rising]
    simp only [Bool.and_eq_true, decide_eq_true_eq]
    constructor
    · rintro ⟨h1, h2⟩
      refine ⟨?_, h2⟩
      have h3 := ((ih k' v').1 h2).1
      intro c hc
      rcases List.mem_cons.1 hc with rfl | hc
      · exact h1
      · exact Nat.lt_trans h1 (h3 c hc)
    · rintro ⟨h1, h2⟩
      exact ⟨h1 (k', v') (by simp), h2⟩

theorem Tab.find_above {lo : Nat} {t : List (Nat × α)} (h : Tab.above lo t) {k : Nat} (hk : k ≤ lo) : Tab.find t k = none := by
  induction t with
  | nil => rfl
  | cons c t ih =>
    obtain ⟨k', v'⟩ := c
    have h1 : lo < k' := h (k', v') (by simp)
    have h2 : k ≠ k' := by omega
    simp only [Tab.find, h2, if_false]
    exact ih fun c hc => h c (by simp [hc])

theorem Tab.find_erase_same (t : List (Nat × α)) (k : Nat) : Tab.find (Tab.erase t k) k = none := by
  induction t with
  | nil => rfl
  | cons c t ih =>
    obtain ⟨k', v'⟩ := c
    unfold Tab.erase
    split
    · exact ih
    · simp [Tab.find, *]

theorem Tab.mem_insert {t : List (Nat × α)} {k : Nat} {v : α} {c : Nat × α} (h : c ∈ Tab.insert t k v) : c = (k, v) ∨ c ∈ t := by
  induction t with
  | nil => simpa [Tab.insert] using h
  | cons e t ih =>
    obtain ⟨k', v'⟩ := e
    unfold Tab.insert at h
    split at h
    · simpa using h
    · split at h
      · rcases List.mem_cons.1 h with h | h <;> simp [h]
      · rcases List.mem_cons.1 h with h | h
        · simp [h]
        · rcases ih h with h | h <;> simp [h]

theorem Tab.mem_erase {t : List (Nat × α)} {k : Nat} {c : Nat × α} (h : c ∈ Tab.erase t k) : c ∈ t := by
  induction t with
  | nil => exact h
  | cons e t ih =>
    obtain ⟨k', v'⟩ := e
    unfold Tab.erase at h
    split at h
    · simp [ih h]
    · rcases List.mem_cons.1 h with h | h
      · simp [h]
      · simp [ih h]

theorem Tab.rising_insert {t : List (Nat × α)} (h : Tab.rising t = true) (k : Nat) (v : α) :
    Tab.rising (Tab.insert t k v) = true := by
  induction t with
  | nil => rfl
  | cons e t ih =>
    obtain ⟨k', v'⟩ := e
    have h2 := (Tab.rising_cons k' v' t).1 h
    unfold Tab.insert
    split
    · refine (Tab.rising_cons _ _ _).2 ⟨?_, h⟩
      intro c hc
      rcases List.mem_cons.1 hc with rfl | hc
      · assumption
      · exact Nat.lt_trans ‹_› (h2.1 c hc)
    · split
      · subst_vars; exact (Tab.rising_cons _ _ _).2 h2
      · refine (Tab.rising_cons _ _ _).2 ⟨?_, ih h2.2⟩
        intro c hc
        rcases Tab.mem_insert hc with rfl | hc
        · show k' < k; omega
        · exact h2.1 c hc

theorem Tab.rising_erase {t : List (Nat × α)} (h : Tab.rising t = true) (k : Nat) : Tab.rising (Tab.erase t k) = true := by
  induction t with
  | nil => rfl
  | cons e t ih =>
    obtain ⟨k', v'⟩ := e
    have h2 := (Tab.rising_cons k' v' t).1 h
    unfold Tab.erase
    split
    · exact ih h2.2
    · exact (Tab.rising_cons _ _ _).2 ⟨fun c hc => h2.1 c (Tab.mem_erase hc), ih h2.2⟩

theorem Tab.rising_filter {t : List (Nat × α)} (h : Tab.rising t = true) (p : Nat × α → Bool) :
    Tab.rising (t.filter p) = true := by
  induction t with
  | nil => rfl
  | cons e t ih =>
    obtain ⟨k', v'⟩ := e
    have h2 := (Tab.rising_cons k' v' t).1 h
    rw [List.filter_cons]
    split
    · exact (Tab.rising_cons _ _ _).2 ⟨fun c hc => h2.1 c (List.mem_filter.1 hc).1, ih h2.2⟩
    · exact ih h2.2

/-- Reading a table after a put. -/
theorem Tab.get_put_other [DecidableEq α] (x : α) (t : List (Nat × α)) {k j : Nat} (v : α) (h : j ≠ k) :
    Tab.get x (Tab.put x t k v) j = Tab.get x t j := by
  unfold Tab.put Tab.get
  split
  · rw [Tab.find_erase_other _ h]
  · rw [Tab.find_insert_other _ _ h]
theorem Tab.get_put_same [DecidableEq α] (x : α) (t : List (Nat × α)) (k : Nat) (v : α) :
    Tab.get x (Tab.put x t k v) k = v := by
  unfold Tab.put Tab.get
  split
  · rw [Tab.find_erase_same]; simp [*]
  · simp

theorem Tab.rising_put [DecidableEq α] (x : α) {t : List (Nat × α)} (h : Tab.rising t = true) (k : Nat) (v : α) :
    Tab.rising (Tab.put x t k v) = true := by
  unfold Tab.put
  split
  · exact Tab.rising_erase h k
  · exact Tab.rising_insert h k v

/-! ## Memory -/

theorem Memory.wf_iff (m : List Host.Cell) : Memory.wf m = true ↔ Tab.rising m = true ∧ ∀ c ∈ m, c.2 ≠ 0#8 := by
  simp [Memory.wf]

theorem Memory.wf_put {m : List Host.Cell} (h : Memory.wf m = true) (k : Nat) (v : BitVec 8) :
    Memory.wf (Tab.put 0#8 m k v) = true := by
  rw [Memory.wf_iff] at *
  refine ⟨Tab.rising_put _ h.1 k v, ?_⟩
  intro c hc
  unfold Tab.put at hc
  split at hc
  · exact h.2 c (Tab.mem_erase hc)
  · rcases Tab.mem_insert hc with rfl | hc
    · assumption
    · exact h.2 c hc

theorem Memory.wf_clear {m : List Host.Cell} (h : Memory.wf m = true) (lo hi : Nat) : Memory.wf (Tab.clear m lo hi) = true := by
  rw [Memory.wf_iff] at *
  exact ⟨Tab.rising_filter h.1 _, fun c hc => h.2 c (List.mem_filter.1 hc).1⟩

variable (d : Dev)

/-- Writing a byte keeps the canonical form. -/
theorem Dev.poke_wf (a v : Nat) (h : Memory.wf d.mem = true) : Memory.wf (d.poke a v).mem = true := Memory.wf_put h _ _

theorem Dev.pokes_wf (a : Nat) (bs : List Nat) (h : Memory.wf d.mem = true) : Memory.wf (d.pokes a bs).mem = true := by
  induction bs generalizing d a with
  | nil => exact h
  | cons b bs ih => exact ih _ _ (d.poke_wf a b h)

theorem Dev.zeroInstance_wf (y sp p : Nat) (h : Memory.wf d.mem = true) : Memory.wf (d.zeroInstance y sp p).mem = true :=
  Memory.wf_clear h _ _
theorem Dev.zeroYard_wf (y : Nat) (h : Memory.wf d.mem = true) : Memory.wf (d.zeroYard y).mem = true := Memory.wf_clear h _ _

theorem Dev.overwriteWord_changes (full : List Nat) (k : Nat) : ∃ g q s us es, Dev.overwriteWord full d k =
    { d with regs := g, recorder := q, sched := s, ueSeen := us, errs := es } := by
  unfold Dev.overwriteWord
  simp only []
  split
  · exact ⟨_, _, _, _, _, rfl⟩
  · split
    · exact ⟨_, _, _, _, _, rfl⟩
    · exact d.meetWord_changes k

/-- Writing bytes over words that hold errors changes no byte by itself, and nothing but what errors are recorded in. -/
theorem Dev.overwrite_changes (l full : List Nat) : ∃ g q s us es, d.overwrite l full =
    { d with regs := g, recorder := q, sched := s, ueSeen := us, errs := es } := by
  unfold Dev.overwrite
  generalize d.errWords l = ks
  induction ks generalizing d with
  | nil => exact ⟨_, _, _, _, _, rfl⟩
  | cons k ks ih =>
    obtain ⟨g, q, s, us, es, h⟩ := d.overwriteWord_changes full k
    obtain ⟨g', q', s', us', es', h'⟩ := ih (Dev.overwriteWord full d k)
    rw [List.foldl_cons, h', h]
    exact ⟨_, _, _, _, _, rfl⟩

theorem Dev.writes_wf (a : Nat) (bs : List Nat) (h : Memory.wf d.mem = true) : Memory.wf (d.writes a bs).mem = true := by
  obtain ⟨g, q, s, us, es, h'⟩ := d.overwrite_changes (addrRange a bs.length) (addrRange a bs.length)
  unfold Dev.writes
  rw [h']
  exact Dev.pokes_wf _ a bs h

/-- Where no word of the part holds an error, writing bytes does no more than that. -/
theorem Dev.writes_clean (a : Nat) (bs : List Nat) (h : d.errs = []) : d.writes a bs = d.pokes a bs := by
  simp [Dev.writes, Dev.overwrite, Dev.errWords, h]

/-- A checked store keeps the canonical form. -/
theorem Dev.store_wf (f : FaultInfo) (a : Nat) (bs : List Nat) (h : Memory.wf d.mem = true) :
    Memory.wf (d.store f a bs).mem = true := by
  unfold Dev.store
  split
  · exact d.writes_wf a bs h
  · obtain ⟨g, q, h'⟩ := d.count_changes .rOCM_FENCED_DROP [‹Nat›] 1; rw [h']; exact h
  · obtain ⟨g, q, s, b, h'⟩ := d.boundsFault_changes f a; rw [h']; exact h

/-- A command's destination keeps the canonical form. -/
theorem Dev.writeDest_wf (a : Nat) (bs : List Nat) (h : Memory.wf d.mem = true) : Memory.wf (d.writeDest a bs).mem = true := by
  unfold Dev.writeDest
  split
  · exact h
  · exact d.writes_wf a bs h

/-- Writing a byte writes no other field, and no other byte. -/
theorem Dev.pokes_changes (a : Nat) (bs : List Nat) : ∃ m, d.pokes a bs = { d with mem := m } := by
  induction bs generalizing d a with
  | nil => exact ⟨_, rfl⟩
  | cons b bs ih => obtain ⟨m, h⟩ := ih (d.poke a b) (a + 1); exact ⟨m, h⟩

@[simp] theorem Dev.pokes_memKey (a : Nat) (bs : List Nat) (x : Nat) : (d.pokes a bs).memKey x = d.memKey x := by
  obtain ⟨m, h⟩ := d.pokes_changes a bs; rw [h]; rfl

theorem Dev.pokes_other (a : Nat) (bs : List Nat) (k : Nat) (h : ∀ i < bs.length, d.memKey (a + i) ≠ k) :
    Tab.get 0#8 (d.pokes a bs).mem k = Tab.get 0#8 d.mem k := by
  induction bs generalizing d a with
  | nil => rfl
  | cons b bs ih =>
    rw [Dev.pokes, ih (d.poke a b) (a + 1)]
    · exact Tab.get_put_other _ _ _ (fun e => h 0 (by simp) e.symm)
    · intro i hi
      have := h (i + 1) (by simpa using hi)
      rwa [Nat.add_assoc, Nat.add_comm 1 i]

theorem reset_memory_wf : Memory.wf State.reset.dev.mem = true := rfl

end Sys2Proof.Machine
end

