-- ==== Sys2Proof/WellFormed.lean ====
section
/-! DEFINITION. Well-formed commands: the static checks the loader applies to one engine instruction (check 7 of R196). -/
namespace Sys2Proof

/-- The loader accepts the instruction's own fields; a command that is no engine instruction is always well formed. -/
def Instr.wellFormed (i : Instr) : Bool := Machine.instrFieldsOk i

end Sys2Proof
end

