-- ==== Sys2Proof/Tests/Slice0.lean ====
section
/-! SUPPORT. Tests of the model on small states: a term that each check of WellFormed refuses; words of engine instructions
written out from the spec's field tables; for every statement a state in which its premises hold together; a few effects worked
out by hand from the spec's rules. -/
namespace Sys2Proof.Tests
set_option Elab.async false
open Sys2Proof Sys2Proof.Machine

/-! ## Helpers -/

def m0 : MEng := ⟨0, 0⟩
def v0 : VEng := ⟨0, 0⟩
def s0 : SEng := ⟨0, 0⟩
def x0 : XEng := ⟨0, 0⟩

/-- The state after reset with its device changed. -/
def st (f : Dev → Dev) : State := { State.reset with dev := f State.reset.dev }

/-- Packets of the two kinds of sender. -/
def hA : Hdr := ⟨.host .ha, 0, 7, false⟩
def hS : Hdr := ⟨.sideband, 0, 7, false⟩

/-! ## Well-formed instructions: what each check refuses -/

def mmaF : MmaF := ⟨false, true, 3, 0xFF, 0, 1, 1, false, false, false, false, false, 0, 0, 0⟩
theorem test_wf_mma : (Instr.mma m0 mmaF).wellFormed = true := by decide
theorem test_wf_mma_reserved_format : (Instr.mma m0 { mmaF with fmtRow := 8 }).wellFormed = false := by decide
theorem test_wf_mma_reserved_format_col : (Instr.mma m0 { mmaF with fmtCol := 15 }).wellFormed = false := by decide
theorem test_wf_mma_pair : (Instr.mma m0 { mmaF with fmtCol := 7 }).wellFormed = false := by decide
theorem test_wf_mma_scale_row : (Instr.mma m0 { mmaF with sclRow := true }).wellFormed = false := by decide
theorem test_wf_mma_scale_col : (Instr.mma m0 { mmaF with sclCol := true }).wellFormed = false := by decide
theorem test_wf_reshape : (Instr.reshape m0 8).wellFormed = false := by decide

def mdrnF : MdrnF := ⟨false, 0, 0, 3, 0, 0, false, 0, false, 0⟩
theorem test_wf_mdrn : (Instr.mdrn m0 mdrnF .none).wellFormed = true := by decide
theorem test_wf_mdrn_dest : (Instr.mdrn m0 { mdrnF with dest := 5 } .none).wellFormed = false := by decide
theorem test_wf_mdrn_slot : (Instr.mdrn m0 { mdrnF with aoff := 4 } .none).wellFormed = false := by decide
theorem test_wf_mdrn_format : (Instr.mdrn m0 { mdrnF with fmt := 8 } .none).wellFormed = false := by decide
theorem test_wf_mdrn_rounding : (Instr.mdrn m0 { mdrnF with rm := 3 } .none).wellFormed = false := by decide
theorem test_wf_mdrn_function : (Instr.mdrn m0 { mdrnF with func := 10 } .none).wellFormed = false := by decide
theorem test_wf_mdrn_fp32_only : (Instr.mdrn m0 { mdrnF with dest := 2, fmt := 1 } .none).wellFormed = false := by decide

def laneF : LaneF := ⟨0, 1, 2, 3, 0, 0, 0, 0, 0, 0, 0⟩
theorem test_wf_lane : (Instr.vadd v0 laneF).wellFormed = true := by decide
theorem test_wf_lane_type : (Instr.vadd v0 { laneF with ty := 3 }).wellFormed = false := by decide
theorem test_wf_lane_sub : (Instr.vadd v0 { laneF with sub := 1 }).wellFormed = false := by decide
theorem test_wf_lane_unused_c : (Instr.vadd v0 { laneF with vc := 1 }).wellFormed = false := by decide
theorem test_wf_lane_register_ext : (Instr.vadd v0 { laneF with ext1 := 1 }).wellFormed = false := by decide
theorem test_wf_lane_source_kind : (Instr.vadd v0 { laneF with bk := 3 }).wellFormed = false := by decide
theorem test_wf_lane_immediate_register : (Instr.vadd v0 { laneF with bk := 2 }).wellFormed = false := by decide
theorem test_wf_broadcast : (Instr.vadd v0 { laneF with bk := 1, vb := 0, ext1 := 10 <<< 17 }).wellFormed = true := by decide
theorem test_wf_broadcast_outside : (Instr.vadd v0 { laneF with bk := 1, vb := 0, ext1 := 1 <<< 6 }).wellFormed = false := by decide
theorem test_wf_broadcast_segment : (Instr.vadd v0 { laneF with bk := 1, vb := 0, ext1 := 12 <<< 17 }).wellFormed = false := by
  decide
theorem test_wf_fma_integer : (Instr.vfma v0 { laneF with ty := 2 }).wellFormed = false := by decide
theorem test_wf_unary_b : (Instr.vabs v0 laneF).wellFormed = false := by decide
theorem test_wf_compare_destination : (Instr.vcmp v0 { laneF with vd := 16 }).wellFormed = false := by decide
theorem test_wf_compare_sub : (Instr.vcmp v0 { laneF with sub := 5 }).wellFormed = false := by decide
theorem test_wf_select_mask : (Instr.vsel v0 { laneF with vc := 16 }).wellFormed = false := by decide
theorem test_wf_logic_float : (Instr.vand v0 laneF).wellFormed = false := by decide
theorem test_wf_mask_source : (Instr.vmand v0 { laneF with va := 16 }).wellFormed = false := by decide
theorem test_wf_mask_not_b : (Instr.vmnot v0 laneF).wellFormed = false := by decide
theorem test_wf_special_integer : (Instr.vexp2 v0 { laneF with ty := 2, vb := 0 }).wellFormed = false := by decide

def smxF : LaneF := { laneF with vb := 0, bk := 1, ck := 2, ext1 := 10 <<< 17, ext2 := 0x3F800000 }
theorem test_wf_softmax : (Instr.vsmx v0 smxF).wellFormed = true := by decide
theorem test_wf_softmax_scale : (Instr.vsmx v0 { smxF with ext2 := 0x80000000 }).wellFormed = false := by decide
theorem test_wf_softmax_infinite : (Instr.vsmrec v0 { smxF with ext2 := 0x7F800000 }).wellFormed = false := by decide
theorem test_wf_softmax_pair : (Instr.vsmrec v0 { smxF with ext1 := (10 <<< 17) + 1 }).wellFormed = false := by decide
theorem test_wf_softmax_norm : (Instr.vsmnorm v0 laneF).wellFormed = false := by decide
theorem test_wf_softmax_stat : (Instr.vsmstat v0 laneF).wellFormed = false := by decide

def vredF : VredF := ⟨0, 1, 2, 0, 0, 0, 10, 1, false⟩
theorem test_wf_vred : (Instr.vred v0 vredF).wellFormed = true := by decide
theorem test_wf_vred_type : (Instr.vred v0 { vredF with ty := 3 }).wellFormed = false := by decide
theorem test_wf_vred_kind : (Instr.vred v0 { vredF with kind := 7 }).wellFormed = false := by decide
theorem test_wf_vred_kind_integer : (Instr.vred v0 { vredF with kind := 6, ty := 2 }).wellFormed = false := by decide
theorem test_wf_vred_i8 : (Instr.vred v0 { vredF with i8 := true }).wellFormed = false := by decide
theorem test_wf_vred_segment : (Instr.vred v0 { vredF with s := 11 }).wellFormed = false := by decide
theorem test_wf_vred_segment_zero : (Instr.vred v0 { vredF with s := 0 }).wellFormed = false := by decide
theorem test_wf_vred_dbase : (Instr.vred v0 { vredF with s := 1, dbase := 513 }).wellFormed = false := by decide

def vcvtF : VcvtF := ⟨1, 1, 2, 0, 0, 0, false, 0, 0, 0, 0⟩
theorem test_wf_vcvt : (Instr.vcvt v0 vcvtF).wellFormed = true := by decide
theorem test_wf_vcvt_types : (Instr.vcvt v0 { vcvtF with dty := 3 }).wellFormed = false ∧
    (Instr.vcvt v0 { vcvtF with sty := 3 }).wellFormed = false := by decide
theorem test_wf_vcvt_modes : (Instr.vcvt v0 { vcvtF with sty := 0, dty := 1, rm := 3 }).wellFormed = false ∧
    (Instr.vcvt v0 { vcvtF with sty := 0, dty := 1, i := 7 }).wellFormed = false ∧
    (Instr.vcvt v0 { vcvtF with sty := 0, dty := 1, s := 15, i := 6 }).wellFormed = true := by decide
/-- A conversion that does not narrow has no rounding, tensor or segment (R148, R177). -/
theorem test_wf_vcvt_unused : (Instr.vcvt v0 { vcvtF with sty := 1, dty := 0, rm := 1 }).wellFormed = false ∧
    (Instr.vcvt v0 { vcvtF with sty := 1, dty := 0, tid := 1 }).wellFormed = false ∧
    (Instr.vcvt v0 { vcvtF with sty := 1, dty := 0, s := 1 }).wellFormed = false := by decide

def vldF : VldF := ⟨0, 1, 0, 128, 0, 0, 0⟩
theorem test_wf_vld : (Instr.vld v0 vldF .none).wellFormed = true := by decide
theorem test_wf_vld_fields : (Instr.vld v0 { vldF with ty := 3 } .none).wellFormed = false ∧
    (Instr.vld v0 { vldF with space := 2 } .none).wellFormed = false := by decide
theorem test_wf_vld_pairing : (Instr.vld v0 { vldF with ty := 1, fmt := 7 } .none).wellFormed = false ∧
    (Instr.vld v0 { vldF with ty := 2, fmt := 1 } .none).wellFormed = false ∧
    (Instr.vld v0 { vldF with fmt := 8 } .none).wellFormed = false := by decide
def vstF : VstF := ⟨vldF, 0, 0, false, 0, 0, 0, 0, 0⟩
theorem test_wf_vst : (Instr.vst v0 vstF).wellFormed = true := by decide
theorem test_wf_vst_fields : (Instr.vst v0 { vstF with ld := { vldF with ty := 3 } }).wellFormed = false ∧
    (Instr.vst v0 { vstF with ld := { vldF with space := 4 } }).wellFormed = false ∧
    (Instr.vst v0 { vstF with ld := { vldF with fmt := 8 } }).wellFormed = false ∧
    (Instr.vst v0 { vstF with rm := 3 }).wellFormed = false ∧ (Instr.vst v0 { vstF with i := 7 }).wellFormed = false ∧
    (Instr.vst v0 { vstF with rows32 := 1 }).wellFormed = false := by decide
theorem test_wf_vst_masked_fp6 : (Instr.vst v0 { vstF with ld := { vldF with fmt := 5 }, mask := 1 }).wellFormed = false := by decide

def blockF : BlockF := ⟨0, 0, 1, 0, 0, 8⟩
theorem test_wf_vchol : (Instr.vchol v0 blockF 1 0x00800000 .none).wellFormed = true := by decide
theorem test_wf_vchol_delta : (Instr.vchol v0 blockF 1 0x007FFFFF .none).wellFormed = false ∧
    (Instr.vchol v0 blockF 1 0x7F800000 .none).wellFormed = false := by decide
theorem test_wf_vchol_stride : (Instr.vchol v0 { blockF with n := 1 } 1 0x3F800000 .none).wellFormed = false := by decide

def intF : IntF := ⟨1, 2, 3, 0, false, 0⟩
theorem test_wf_int : (Instr.sadd s0 intF).wellFormed = true := by decide
theorem test_wf_int_unused : (Instr.sadd s0 { intF with rc := 1 }).wellFormed = false ∧
    (Instr.sadd s0 { intF with val := 1 }).wellFormed = false ∧ (Instr.sadd s0 { intF with imm := true }).wellFormed = false := by
  decide
theorem test_wf_int_three : (Instr.ssel s0 { intF with val := 1 }).wellFormed = false ∧
    (Instr.sffma s0 { intF with imm := true }).wellFormed = false := by decide
theorem test_wf_int_one : (Instr.sfrcp s0 intF).wellFormed = false := by decide
theorem test_wf_scmp : (Instr.scmp s0 { intF with rc := 6 }).wellFormed = false := by decide
theorem test_wf_sfcvt : (Instr.sfcvt s0 { intF with rb := 0, rc := 6 }).wellFormed = false ∧
    (Instr.sfcvt s0 { intF with rc := 2 }).wellFormed = false ∧ (Instr.sfcvt s0 { intF with rc := 5, val := 1 }).wellFormed = false := by
  decide
def memF : MemF := ⟨1, 0, 3, false, 0⟩
theorem test_wf_sst : (Instr.sst s0 { memF with sgn := true }).wellFormed = false := by decide

def uupdF : UupdF := ⟨0, false, 0, 0, 0, 4⟩
theorem test_wf_uupd : (Instr.uupd s0 uupdF).wellFormed = true := by decide
theorem test_wf_uupd_fields : (Instr.uupd s0 { uupdF with unit := 20 }).wellFormed = false ∧
    (Instr.uupd s0 { uupdF with flags := 3 }).wellFormed = false ∧ (Instr.uupd s0 { uupdF with flags := 24 }).wellFormed = false ∧
    (Instr.uupd s0 { uupdF with sreg := 61 }).wellFormed = false := by decide
def usetcF : UsetcF := ⟨0, 0, 0, 0x7800, 4⟩
theorem test_wf_usetc : (Instr.usetc s0 usetcF).wellFormed = true := by decide
theorem test_wf_usetc_fields : (Instr.usetc s0 { usetcF with unit := 20 }).wellFormed = false ∧
    (Instr.usetc s0 { usetcF with cmask := 0x1F }).wellFormed = false ∧
    (Instr.usetc s0 { usetcF with cmask := 0x8000 }).wellFormed = false ∧
    (Instr.usetc s0 { usetcF with group := 255, gcount := 1 }).wellFormed = false ∧
    (Instr.usetc s0 { usetcF with sreg := 62 }).wellFormed = false := by decide
theorem test_wf_urls : (Instr.urls s0 20 0 0).wellFormed = false ∧ (Instr.urls s0 0 0 63).wellFormed = false := by decide
theorem test_wf_trkrd : (Instr.trkrd s0 1 0 18).wellFormed = false ∧ (Instr.trkrd s0 1 0 17).wellFormed = true := by decide

/-! ## Words, bit by bit from Tables 9-1 to 9-10: DELTA [11:0], OP [19:12], then the fields at their bits -/

/-- The three words of the spec's worked example at R181. -/
theorem test_word_reshape : decodeM m0 0x111000 = some (0, .reshape m0 1) := by decide
theorem test_word_msetb : decodeM m0 0x4001 = some (1, .msetb m0 0 0) := by decide
theorem test_word_mma : decodeM m0 0x000000000100000060443FC8FFC10028 = some (40, .mma m0
    { acc := false, init := false, steps := 0x23FF, cadence := 0xFF, lead := 0, fmtRow := 1, fmtCol := 1, sclRow := false,
      sclCol := false, srcRow := false, srcCol := true, trans := true, hbase := 0, hoff := 0x400000, stride := 0 }) := by decide
theorem test_word_mdrn : decodeM m0 (BitVec.ofNat 128 (0x12 * 2 ^ 12 + 2 ^ 20 + 3 * 2 ^ 21 + 5 * 2 ^ 24 + 0x7654321 * 2 ^ 27
    + 0 * 2 ^ 54 + 2 * 2 ^ 58 + 2 ^ 60 + 9 * 2 ^ 61 + 2 ^ 65 + 0x8001 * 2 ^ 66)) = some (0, .mdrn m0
    { acc := true, dest := 3, abase := 5, aoff := 0x7654321, fmt := 0, rm := 2, sat := true, func := 9, drop := true,
      profile := 0x8001 } .none) := by decide
theorem test_word_mloop : decodeM m0 (BitVec.ofNat 128 (0x01 * 2 ^ 12 + 0xFFFE * 2 ^ 20 + 0xABC * 2 ^ 36)) =
    some (0, .mloop m0 0xFFFE 0xABC) := by decide
theorem test_word_maddb : decodeM m0 (BitVec.ofNat 128 (0xFFF + 0x05 * 2 ^ 12 + 6 * 2 ^ 20 + 0xFFFFFFFF * 2 ^ 23)) =
    some (0xFFF, .maddb m0 6 0xFFFFFFFF) := by decide
/-- A reserved bit, and an opcode that Tables 9-2 to 9-4 do not have. -/
theorem test_word_reserved_m : decodeM m0 (0x111000 + 2 ^ 24) = none ∧ decodeM m0 0x13000 = none ∧ decodeM m0 0x1000FF = none := by
  decide

theorem test_word_vadd : decodeV v0 (BitVec.ofNat 128 (1 + 0x10 * 2 ^ 12 + 1 * 2 ^ 20 + 63 * 2 ^ 23 + 1 * 2 ^ 29 + 2 * 2 ^ 35
    + 3 * 2 ^ 41 + 15 * 2 ^ 47 + 1 * 2 ^ 51 + 2 * 2 ^ 53 + 4 * 2 ^ 55 + 0xDEADBEEF * 2 ^ 64 + 0x3F800000 * 2 ^ 96)) =
    some (1, .vadd v0 ⟨1, 63, 1, 2, 3, 15, 1, 2, 4, 0xDEADBEEF, 0x3F800000⟩) := by decide
theorem test_word_vsmrec : decodeV v0 (BitVec.ofNat 128 (0x3B * 2 ^ 12)) = some (0, .vsmrec v0 ⟨0, 0, 0, 0, 0, 0, 0, 0, 0, 0, 0⟩) := by
  decide
theorem test_word_vred : decodeV v0 (BitVec.ofNat 128 (0x40 * 2 ^ 12 + 2 * 2 ^ 20 + 4 * 2 ^ 23 + 5 * 2 ^ 29 + 6 * 2 ^ 47 + 3 * 2 ^ 55
    + 0x2AA * 2 ^ 64 + 9 * 2 ^ 74 + 14 * 2 ^ 78 + 2 ^ 82)) = some (0, .vred v0 ⟨2, 4, 5, 6, 3, 0x2AA, 9, 14, true⟩) := by decide
theorem test_word_vcvt : decodeV v0 (BitVec.ofNat 128 (0x1A * 2 ^ 12 + 1 * 2 ^ 20 + 4 * 2 ^ 23 + 5 * 2 ^ 29 + 6 * 2 ^ 47 + 2 * 2 ^ 55
    + 1 * 2 ^ 59 + 2 ^ 61 + 0xCAFE * 2 ^ 64 + 3 * 2 ^ 80 + 11 * 2 ^ 83 + 6 * 2 ^ 87)) =
    some (0, .vcvt v0 ⟨1, 4, 5, 6, 2, 1, true, 0xCAFE, 3, 11, 6⟩) := by decide
theorem test_word_vld : decodeV v0 (BitVec.ofNat 128 (0x48 * 2 ^ 12 + 1 * 2 ^ 20 + 33 * 2 ^ 23 + 7 * 2 ^ 29 + 0xFFFFF80 * 2 ^ 32
    + 1 * 2 ^ 60 + 3 * 2 ^ 63 + 0xFE * 2 ^ 67)) = some (0, .vld v0 ⟨1, 33, 7, 0xFFFFF80, 1, 3, 0xFE⟩ .none) := by decide
theorem test_word_vst : decodeV v0 (BitVec.ofNat 128 (0x49 * 2 ^ 12 + 33 * 2 ^ 23 + 128 * 2 ^ 32 + 3 * 2 ^ 60 + 1 * 2 ^ 63 + 9 * 2 ^ 75
    + 2 * 2 ^ 79 + 2 ^ 81 + 0x1234 * 2 ^ 82 + 5 * 2 ^ 98 + 10 * 2 ^ 101 + 4 * 2 ^ 105 + 0xBEEF * 2 ^ 108)) =
    some (0, .vst v0 ⟨⟨0, 33, 0, 128, 3, 1, 0⟩, 9, 2, true, 0x1234, 5, 10, 4, 0xBEEF⟩) := by decide
theorem test_word_vchol : decodeV v0 (BitVec.ofNat 128 (0x50 * 2 ^ 12 + 1 * 2 ^ 20 + 0x1001 * 2 ^ 23 + 0x80 * 2 ^ 36 + 127 * 2 ^ 49
    + 63 * 2 ^ 56 + 0x1FFF * 2 ^ 62 + 12 * 2 ^ 75 + 0x35800000 * 2 ^ 79)) =
    some (0, .vchol v0 ⟨1, 0x1001, 0x80, 127, 63, 0x1FFF⟩ 12 0x35800000 .none) := by decide
theorem test_word_vtrsm : decodeV v0 (BitVec.ofNat 128 (0x51 * 2 ^ 12 + 2 ^ 75 + 127 * 2 ^ 76 + 5 * 2 ^ 83 + 0x1555 * 2 ^ 86
    + 0x0AAA * 2 ^ 99)) = some (0, .vtrsm v0 ⟨0, 0, 0, 0, 0, 0⟩ true 127 5 0x1555 0x0AAA .none) := by decide
theorem test_word_vrel : decodeV v0 (BitVec.ofNat 128 (0x4A * 2 ^ 12 + 9 * 2 ^ 20)) = some (0, .vrel v0 9) := by decide
theorem test_word_reserved_v : decodeV v0 (BitVec.ofNat 128 (0x10 * 2 ^ 12 + 2 ^ 59)) = none ∧
    decodeV v0 (BitVec.ofNat 128 (0x3C * 2 ^ 12)) = none := by decide

theorem test_word_sadd : decodeS s0 (BitVec.ofNat 64 (7 + 0x10 * 2 ^ 12 + 1 * 2 ^ 20 + 2 * 2 ^ 26 + 2 ^ 44 + 0x7FFFF * 2 ^ 45)) =
    some (7, .sadd s0 ⟨1, 2, 0, 0, true, 0x7FFFF⟩) := by decide
theorem test_word_sffma : decodeS s0 (BitVec.ofNat 64 (0x32 * 2 ^ 12 + 1 * 2 ^ 20 + 2 * 2 ^ 26 + 3 * 2 ^ 32 + 63 * 2 ^ 38)) =
    some (0, .sffma s0 ⟨1, 2, 3, 63, false, 0⟩) := by decide
theorem test_word_sli : decodeS s0 (BitVec.ofNat 64 (0x1B * 2 ^ 12 + 9 * 2 ^ 20 + 0x80000000 * 2 ^ 32)) =
    some (0, .sli s0 9 0x80000000) := by decide
theorem test_word_sadda : decodeS s0 (BitVec.ofNat 64 (0x20 * 2 ^ 12 + 31 * 2 ^ 20 + 1 * 2 ^ 25 + 64 * 2 ^ 32)) =
    some (0, .sadda s0 31 1 64) := by decide
theorem test_word_smova : decodeS s0 (BitVec.ofNat 64 (0x21 * 2 ^ 12 + 30 * 2 ^ 20 + 62 * 2 ^ 30)) = some (0, .smova s0 30 62) := by
  decide
theorem test_word_sld : decodeS s0 (BitVec.ofNat 64 (0x28 * 2 ^ 12 + 5 * 2 ^ 20 + 6 * 2 ^ 26 + 2 * 2 ^ 31 + 2 ^ 33 + 0x3FFFFFFF * 2 ^ 34)) =
    some (0, .sld s0 ⟨5, 6, 2, true, 0x3FFFFFFF⟩ .none) := by decide
theorem test_word_xstart : decodeS s0 (BitVec.ofNat 64 (0x40 * 2 ^ 12 + 2 ^ 20 + 17 * 2 ^ 21 + 0x3FFF * 2 ^ 26 + 0xABCDEF * 2 ^ 40)) =
    some (0, .xstart s0 ⟨true, 17, 0x3FFF, 0xABCDEF⟩ .none) := by decide
theorem test_word_uupd : decodeS s0 (BitVec.ofNat 64 (0x48 * 2 ^ 12 + 19 * 2 ^ 20 + 2 ^ 25 + 21 * 2 ^ 26 + 0xAA * 2 ^ 31 + 0x8001 * 2 ^ 39
    + 60 * 2 ^ 55)) = some (0, .uupd s0 ⟨19, true, 21, 0xAA, 0x8001, 60⟩) := by decide
theorem test_word_usetc : decodeS s0 (BitVec.ofNat 64 (0x49 * 2 ^ 12 + 19 * 2 ^ 20 + 0x55 * 2 ^ 25 + 3 * 2 ^ 33 + 0x0F00 * 2 ^ 41
    + 61 * 2 ^ 57)) = some (0, .usetc s0 ⟨19, 0x55, 3, 0x0F00, 61⟩) := by decide
theorem test_word_urls : decodeS s0 (BitVec.ofNat 64 (0x4A * 2 ^ 12 + 4 * 2 ^ 20 + 412 * 2 ^ 25 + 62 * 2 ^ 41)) =
    some (0, .urls s0 4 412 62) := by decide
theorem test_word_trkclr : decodeS s0 (BitVec.ofNat 64 (0x50 * 2 ^ 12 + 17 * 2 ^ 20 + 0xEC * 2 ^ 28)) = some (0, .trkclr s0 17 0xEC) := by
  decide
theorem test_word_trkrd : decodeS s0 (BitVec.ofNat 64 (0x51 * 2 ^ 12 + 9 * 2 ^ 20 + 255 * 2 ^ 26 + 17 * 2 ^ 34)) =
    some (0, .trkrd s0 9 255 17) := by decide
theorem test_word_sorg : decodeS s0 (BitVec.ofNat 64 (0x52 * 2 ^ 12 + 15 * 2 ^ 20 + 2 ^ 24 + 200 * 2 ^ 25 + 7 * 2 ^ 33)) =
    some (0, .sorg s0 15 true 200 7) := by decide
theorem test_word_reserved_s : decodeS s0 (BitVec.ofNat 64 (0x20 * 2 ^ 12 + 2 ^ 30)) = none ∧
    decodeS s0 (BitVec.ofNat 64 (0x1D * 2 ^ 12)) = none := by decide

/-! ## Premises that hold together -/

/-- `Accepts` as a check. -/
def acceptsB (d : Dev) (opc : Nat) (h : Hdr) : Bool :=
  decide (d.run ≠ .off) && (decide (d.run ≠ .boot) || decide (h.src = .sideband ∧ d.boot.stage ≠ 0)) && !d.boot.restarting &&
    match cmdRow opc with
    | some c => (!c.claim || decide (d.claim = some h.src)) && c.accepts d.run && (!(c.long || c.alone) || d.long.isNone)
    | none => false

theorem accepts_of {d : Dev} {opc : Nat} {h : Hdr} (a : acceptsB d opc h = true) : d.Accepts opc h := by
  unfold acceptsB at a
  cases hc : cmdRow opc with
  | none => rw [hc] at a; simp at a
  | some c =>
    rw [hc] at a
    simp only [Bool.and_eq_true, Bool.or_eq_true, decide_eq_true_eq, Bool.not_eq_true', Option.isNone_iff_eq_none,
      Bool.or_eq_false_iff] at a
    obtain ⟨⟨⟨h1, h2⟩, h3⟩, ⟨h4, h5⟩, h6⟩ := a
    refine ⟨⟨h1, fun hb => h2.resolve_left fun x => x hb, h3⟩, c, hc, fun hcl => h4.resolve_left (by simp [hcl]), h5, ?_⟩
    intro hl
    refine h6.resolve_left ?_
    rintro ⟨a, b⟩
    simp [a, b] at hl

/-- Port HA holds the claim, in a run state. -/
def owned (r : PartState) (f : Dev → Dev := id) : State := st fun d => f { d with claim := some (.host .ha), run := r }

/-- A work that stands for any long command. -/
def anyLong : LongCmd := ⟨⟨hA, 0x11, 5⟩, .verify .ok⟩

/-- An image with nothing in it. -/
def img : Image := ⟨false, 0, [], 0, 0, [], [], [], [], [], [], [], [], [], [], [], [], []⟩

/-- StepRunsFrontCommand. -/
theorem test_met_idle : State.reset.pending = [] := by decide

/-- ArbiterChecksInOrder: OFF, BOOT, a restart, no claim, a state that refuses, a long command in the way. -/
theorem test_met_arbiter : commandOf (.start hA 2 0) = some (0x12, hA) ∧ (st fun d => { d with run := .off }).dev.run = .off ∧
    ((st fun d => { d with run := .boot }).dev.run = .boot ∧ hA.src ≠ .sideband) ∧
    (st fun d => { d with run := .boot, boot := { d.boot with stage := 0 } }).dev.boot.stage = 0 ∧
    (st fun d => { d with boot := { d.boot with restarting := true } }).dev.boot.restarting = true ∧
    State.reset.dev.claim ≠ some hA.src ∧ ((owned .ready).dev.claim = some hA.src ∧ inLoaded (owned .ready).dev.run = false) ∧
    ((owned .loaded).dev.claim = some hA.src ∧ inLoaded (owned .loaded).dev.run = true ∧
      (owned .loaded fun d => { d with long := some anyLong }).dev.long ≠ none) := by decide

/-- ReplyEntryWritten: the last entry of a ring of 16, a full ring, a ring that is off. -/
def ringDev (r : RingPair) (on : Bool := true) : Dev := { State.reset.dev with portA := { ring0 := r, cfg := { bme := on } } }
def rep : Reply := ⟨7, 1, .ok, false, false, 0, 0, 5, 0⟩
theorem test_met_reply :
    (let d := ringDev { rqEn := true, rqSize := 4, rqTail := 15 }
     rep.event = false ∧ ((d.port .ha).ring 0).rqEn = true ∧ (d.port .ha).canWrite = true ∧ ((d.port .ha).ring 0).waiting = [] ∧
      ((d.port .ha).ring 0).used < 2 ^ ((d.port .ha).ring 0).rqSize ∧
      ((d.port .ha).ring 0).rqTail < 2 ^ ((d.port .ha).ring 0).rqSize) ∧
    (let d := ringDev { rqEn := true, rqSize := 4, used := 16 }
     ((d.port .ha).ring 0).rqEn = true ∧ 2 ^ ((d.port .ha).ring 0).rqSize ≤ ((d.port .ha).ring 0).used) ∧
    (((ringDev { rqEn := true, rqSize := 4 } false).port .ha).canWrite = false) ∧ ((ringDev {}).port .ha).ring0.rqEn = false := by
  decide
theorem test_met_reply_ring : ((ringDev {}).port .ha).ring0.rqEn = false ∧ (4 ≤ (12 : Word).toNat % 16 ∧ (12 : Word).toNat % 16 ≤ 12) ∧
    (4096 : Word).toNat % 4096 = 0 ∧ ((ringDev { rqEn := true, rqSize := 4, used := 16 }).port .ha).ring0.rqEn = true ∧
    (15 : Word).toNat < 2 ^ 4 ∧ ((ringDev { rqEn := true, rqSize := 4, used := 16 }).port .ha).events = [] ∧
    (∀ j : Fin 4, (((ringDev { rqEn := true, rqSize := 4, used := 16 }).port .ha).ring j).waiting = []) := by decide
/-- The reply in the last entry wraps the tail and turns PHASE over (R315). -/
theorem test_reply_wraps :
    let r := (((ringDev { rqEn := true, rqSize := 4, rqTail := 15 }).replyHost .ha 0 false rep).port .ha).ring 0
    r.rqTail = 0 ∧ r.phase = false ∧ r.used = 1 := by decide

/-- StatusAndClaimCommands. -/
theorem test_met_status : (∀ c ∈ [0x01, 0x02, 0x30, 0x71, 0x72, 0x43], acceptsB State.reset.dev c hA = true) ∧
    acceptsB (owned .ready).dev 0x33 hA = true ∧ State.reset.dev.seen.run ≠ .boot ∧
    (acceptsB (st fun d => { d with run := .boot }).dev 0x02 hS = true ∧ (st fun d => { d with run := .boot }).dev.seen.run = .boot) ∧
    regAtAddress 0x7F0000000000 = some (.rDEV_IDENT, []) ∧ (23 : Byte).toNat < 24 := by decide +kernel
theorem test_met_claim : acceptsB State.reset.dev 0x03 hA = true ∧ State.reset.dev.seen.claim = none ∧
    (acceptsB (owned .ready).dev 0x03 hS = true ∧ (owned .ready).dev.seen.claim = some (.host .ha) ∧ hS.src = .sideband ∧
      (owned .ready).dev.seen.claim ≠ none ∧ (owned .ready).dev.seen.claim ≠ some hS.src) ∧
    (acceptsB (owned .ready).dev 0x04 hA = true ∧ (owned .ready).dev.seen.claim = some hA.src) ∧
    State.reset.dev.seen.claim ≠ some hA.src := by decide

/-- A window that port HA may read and write: window 0, 64 KiB. -/
def withWindow (d : Dev) : Dev :=
  ((((d.setF fXFR_WIN_CFG_VALID [0] 1).setF fXFR_WIN_CFG_READ [0] 1).setF fXFR_WIN_CFG_WRITE [0] 1).setF fXFR_WIN_CFG_PAGES [0] 16).setPort
    .ha { (d.port .ha) with cfg := { bme := true } }

/-- RecorderCompletes: the sender's window takes a record; a trigger waits; a dump is due, and is in progress. -/
theorem test_met_read_recorder : acceptsB (st withWindow).dev 0x32 hA = true ∧
    (st withWindow).dev.seen.windowDest hA.src 0x400000000000 (128 * 1) = true ∧
    Tab.find (st fun d => { d with flash := { d.flash with dumps := [(0, [])] } }).dev.flash.dumps 0 = some [] := by decide +kernel
theorem test_met_recorder : acceptsB (owned .ready).dev 0x33 hA = true ∧ (owned .ready).dev.seen.recorder.dump = none ∧
    ((owned .ready fun d => { d with recorder := { d.recorder with dump := some 3 } }).dev.seen.recorder.dump = some 3) ∧
    (let d := (st fun d => { d with recorder := { d.recorder with queue := [⟨255, 0, 0⟩] } }).dev
     d.recorder.queue = ⟨255, 0, 0⟩ :: [] ∧ d.recorder.last = none ∧ d.recFull = false) ∧
    (let d := (st fun d => { d with recorder := { d.recorder with dumpAt := some 0 } }).dev
     d.recorder.dumpAt = some 0 ∧ 0 ≤ d.sched.ref ∧ d.recorder.dump = none) := by decide +kernel
/-- A trigger that fires twice makes two records, numbered 1 and 2; number 0 is never used (R364). -/
theorem test_record_numbers : nextRecordSeq 0 = 1 ∧ nextRecordSeq (2 ^ 32 - 1) = 1 := by decide

/-- TriggersAndMonitorsComplete: source 0, and source 5 whose event bit is 0, enabled or not; the recorder open, paused, with a full queue. -/
def trigOn (f : Dev → Dev := id) : State := st fun d => f (d.setF fREC_TRIG_EN_EN [] (2 ^ 0 + 2 ^ 5))
theorem test_met_triggers : bit ((st fun d => d.setF fREC_TRIG_EN_EN [] 0).dev.getF fREC_TRIG_EN_EN []) 0 = false ∧
    (bit (trigOn.dev.getF fREC_TRIG_EN_EN []) 5 = true ∧ trigOn.dev.eventBit 5 0 = false) ∧ trigOn.dev.eventBit 0 3 = true ∧
    (bit (trigOn.dev.getF fREC_TRIG_EN_EN []) 0 = true ∧ trigOn.dev.flag fREC_CTL_PAUSE [] = false ∧ trigOn.dev.recFull = false ∧
      trigOn.dev.recorder.queue.length < 64) ∧
    (trigOn fun d => d.setF fREC_CTL_PAUSE [] 1).dev.flag fREC_CTL_PAUSE [] = true ∧
    64 ≤ (trigOn fun d => { d with recorder := { d.recorder with queue := List.replicate 64 ⟨1, 0, 0⟩ } }).dev.recorder.queue.length := by
  decide +kernel
theorem test_met_monitors : acceptsB (st withWindow).dev 0x34 hA = true ∧ (63 : Byte).toNat < 64 ∧
    (st withWindow).dev.seen.windowDest hA.src 0x400000000000 256 = true ∧ acceptsB (owned .ready).dev 0x35 hA = true ∧
    (let cfg : Word := BitVec.ofNat 64 (8 * 2 ^ 48 + 15 * 2 ^ 40 + 24 * 2 ^ 32)
     bits cfg.toNat 55 48 ≠ 0 ∧ bits cfg.toNat 55 48 ≤ 12 ∧ monitorUnitOk (bits cfg.toNat 55 48) (bits cfg.toNat 47 40) = true ∧
      bits cfg.toNat 36 32 ≤ 24 ∧ bits cfg.toNat 60 56 = 0 ∧ bits cfg.toNat 39 37 = 0) ∧ (15 : Byte).toNat < 16 := by decide +kernel

/-- ImagesAreLoaded: bytes in DDR5 that are no image; the long commands that end. -/
theorem test_met_images : acceptsB (owned .ready).dev 0x10 hA = true ∧ acceptsB State.reset.dev 0x11 hA = true ∧
    (0x100000000000 : Word).toNat % 256 = 0 ∧
    State.reset.dev.seen.srcSpace hA.src 0x100000000000 512 false true ≠ .bad ∧
    (State.reset.dev.seen.readSource hA.src 0x100000000000 512 ⟨true, []⟩).1 = some (List.replicate 512 0) ∧
    (State.reset.dev.seen.readSource hA.src 0x100000000000 512 ⟨true, []⟩).2.checkImage (List.replicate 512 0) 512 none = .imageHeader ∧
    (st fun d => { d with long := some anyLong }).dev.long = some ⟨⟨hA, 0x11, 5⟩, .verify .ok⟩ := by decide +kernel
/-- A window of the sender gives a LOAD_IMAGE whatever bytes pass the checks: 256 of them here. -/
theorem test_met_load (b : List Nat) (r : HostRead) (hr : r.ok = true)
    (hb : (r.bytes.map BitVec.toNat ++ List.replicate (256 - r.bytes.length) 0).take 256 = b) :
    ((owned .ready withWindow).dev.seen.readSource hA.src 0x400000000000 256 r) = (some b, (owned .ready withWindow).dev.seen) ∧
    acceptsB (owned .ready withWindow).dev 0x10 hA = true := by
  have h : (owned .ready withWindow).dev.seen.srcSpace hA.src 0x400000000000 256 false true = .window 0 0 := by decide +kernel
  have hw : ((owned .ready withWindow).dev.seen.port (windowPort 0)).canWrite = true := by decide +kernel
  exact ⟨by unfold Dev.readSource; rw [h]; simp only [hr, hw, hb, Bool.and_self, if_true], by decide +kernel⟩
/-- The bytes of a writing pass's image whose body, and so its digest, is as short as can be. -/
def short0 : List Nat := List.replicate 80 0 ++ List.replicate 32 7 ++ List.replicate 144 0
theorem test_met_load_end (hd : Config.sm3 [] = List.replicate 32 7) :
    (owned .ready fun d => { withWindow d with long := some ⟨⟨hA, 0x10, 5⟩, .load 0x400000000000 256 (List.replicate 32 7)⟩ }).dev.long =
      some ⟨⟨hA, 0x10, 5⟩, .load 0x400000000000 256 (List.replicate 32 7)⟩ ∧
    (Dev.readSource { (owned .ready withWindow).dev with long := none } hA.src 0x400000000000 256 ⟨true, short0.map (BitVec.ofNat 8)⟩).1 =
      some short0 ∧
    Config.sm3 (short0.drop 256) = List.replicate 32 7 ∧ (short0.drop 0x50).take 32 = List.replicate 32 7 :=
  ⟨by decide +kernel, by decide +kernel, hd, by decide +kernel⟩

/-- StartSetsUpTheRun. -/
def loaded (f : Dev → Dev := id) : State := owned .loaded fun d => f { d with sched := { d.sched with image := some img } }
theorem test_met_start : acceptsB loaded.dev 0x12 hA = true ∧ loaded.dev.seen.sched.image = some img ∧
    loaded.dev.seen.check5 img = true ∧ loaded.dev.seen.canServe img = true ∧ loaded.dev.seen.domainsOn = true ∧
    (img.multi = true → loaded.dev.seen.timeGood = true) ∧ loaded.dev.sched.tc + 16384 ≤ (2 : Word).toNat * 8192 ∧
    (1 : Word).toNat * 8192 < loaded.dev.sched.tc + 16384 := by decide +kernel
/-- With AUTO at time 0 the base mark is the first that begins 16,384 tc on: mark 2 (R328). -/
theorem test_start_auto : ceilDiv (loaded.dev.sched.tc + 16384) 8192 = 2 := by decide +kernel

/-- HaltResumeAbort: RUNNING with sc 0 begun, HALTED, a freeze that may be released, READY, LOADED. -/
def running (f : Dev → Dev := id) : State :=
  owned .running fun d => f { d with sched := { d.sched with begun := true, sc := 100, image := some img } }
theorem test_met_halt : acceptsB (owned .halted).dev 0x13 hA = true ∧ acceptsB running.dev 0x13 hA = true ∧
    running.dev.run = .running ∧ running.dev.sched.hold.held = false ∧ running.dev.sched.hold.freeze = none ∧
    running.dev.sched.begun = true ∧
    (let s := running fun d => { d with sched := { d.sched with hold := { freeze := some 124, isHold := true } } }
     acceptsB s.dev 0x13 hA = true ∧ s.dev.run = .running ∧ s.dev.sched.hold.freeze = some 124 ∧ s.dev.sched.hold.held = false ∧
      s.dev.sched.stop = none) ∧
    (let s := owned .held fun d => { d with sched := { d.sched with hold := { freeze := some 124, isHold := true, held := true } } }
     acceptsB s.dev 0x13 hA = true ∧ s.dev.run = .held ∧ s.dev.sched.hold.freeze = some 124 ∧ s.dev.sched.hold.held = true ∧
      s.dev.sched.stop = none) := by decide +kernel
def halted : State := owned .halted fun d => { d with sched := { d.sched with
  begun := true, sc := 124, hold := { freeze := some 124, isHold := true, held := true, halt := true, cause := 9 } } }
theorem test_met_resume : acceptsB halted.dev 0x14 hA = true ∧ halted.dev.sched.hold.freeze = some 124 ∧
    halted.dev.sched.hold.isHold = true ∧ halted.dev.sched.stop = none ∧ halted.dev.sched.hold.releasing = none ∧
    halted.dev.sched.curAnchor = none ∧ halted.dev.seen.relocking = false ∧ halted.dev.sched.hold.snap = false ∧
    (∀ e ∈ halted.dev.sched.board, e.done = true ∨ 124 + 31 < e.due) ∧
    ¬ (({ halted.dev.sched with hold := { halted.dev.sched.hold with snap := true } } : Sched).hold.snap = false) := by decide +kernel
theorem test_met_abort : acceptsB (owned .ready).dev 0x15 hA = true ∧ (owned .ready).dev.seen.long = none ∧
    acceptsB running.dev 0x15 hA = true ∧ running.dev.run ≠ .ready ∧ running.dev.run ≠ .loaded ∧ running.dev.tripped = false ∧
    (let s := owned .ready fun d => { d with long := some ⟨⟨hA, 0x10, 5⟩, .load 0 256 []⟩ }
     acceptsB s.dev 0x15 hA = true ∧ s.dev.run = .ready ∧ s.dev.long = some ⟨⟨hA, 0x10, 5⟩, .load 0 256 []⟩) ∧
    (owned .faulted fun d => { d with tripped := true }).dev.tripped = true ∧
    acceptsB (owned .faulted fun d => { d with tripped := true }).dev 0x15 hA = true := by
  decide +kernel

/-- SnapshotsComplete: the freeze is due 24 sc before SC, the copy is due at SC, the copy is written. -/
def snap0 : SnapReq := ⟨⟨hA, 0x16, 5⟩, 0, 124, 0x100000000000, 0, false, false, 0⟩
def snapping (r : SnapReq) (h : Hold) : State :=
  running fun d => { d with snapReq := some r, sched := { d.sched with hold := h } }
theorem test_met_snapshot :
    ((snapping snap0 {}).dev.snapFreezeDue = true ∧ (snapping snap0 {}).dev.sched.hold.freeze = none) ∧
    (let s := snapping { snap0 with frozen := true } { freeze := some 124, held := true, snap := true }
     s.dev.snapWriteDue = true ∧ s.dev.sched.hold.freeze = some snap0.sc ∧ s.dev.safePoint = true) ∧
    (let s := snapping { snap0 with frozen := true } { freeze := some 123, held := true, snap := true }
     s.dev.snapWriteDue = true ∧ s.dev.sched.hold.freeze ≠ some snap0.sc) ∧
    (∃ c o, locate snap0.dst = .ddr c o) ∧ locate 0x400000000000 = .window 0 0 ∧ running.dev.windowValid 0 = false := by
  exact ⟨by decide +kernel, by decide +kernel, by decide +kernel, ⟨0, 0, by decide⟩, by decide, by decide +kernel⟩
/-- A request for the registers and engines alone, into a window of 64 KiB that holds the state block. -/
theorem test_met_snapshot_request (hl : Config.stateBlockLen 0 ≤ 4096) : acceptsB (running withWindow).dev 0x16 hA = true ∧
    (running withWindow).dev.seen.sched.shown + 64 ≤ (164 : Word).toNat ∧ (running withWindow).dev.snapReq = none ∧
    (running withWindow).dev.seen.srcSpace hA.src 0x400000000000 ((running withWindow).dev.seen.snapLen 0) true false ≠ .bad ∧
    (running withWindow).dev.seen.destOverlaps 0x400000000000 ((running withWindow).dev.seen.snapLen 0) = false := by
  have hn : (running withWindow).dev.seen.snapLen 0 = 0x100 + align16 (Config.stateBlockLen 0) := rfl
  have hle : 0 + (running withWindow).dev.seen.snapLen 0 ≤ (running withWindow).dev.seen.windowLen 0 := by
    have hw : (running withWindow).dev.seen.windowLen 0 = 65536 := by decide +kernel
    rw [hw, hn]; unfold align16 ceilDiv; omega
  refine ⟨by decide +kernel, by decide +kernel, by decide +kernel, ?_, rfl⟩
  have h1 : locate 0x400000000000 = .window 0 0 := by decide
  have h2 : (decide (hA.src = .host (windowPort 0)) && (running withWindow).dev.seen.windowValid 0 &&
      (running withWindow).dev.seen.flag fXFR_WIN_CFG_WRITE [0]) = true := by decide +kernel
  unfold Dev.srcSpace
  simp only [h1, if_true, h2, Bool.true_and, decide_eq_true hle]
  simp
theorem test_met_snapshot_written : (snapping { snap0 with frozen := true, writing := true } {}).dev.snapBody
      { snap0 with frozen := true, writing := true } =
    (pad16 (stateBytes 0), (snapping { snap0 with frozen := true, writing := true } {}).dev) := rfl
def imgZ : Image := { img with digest := List.replicate 32 0 }
def haltedZ : State := { halted with dev := { halted.dev with sched := { halted.dev.sched with image := some imgZ } } }
/-- A snapshot's header over an empty body: length 256 at 0x40, STATE_VER 3, the digest at 0x50. -/
def snapB : List Nat := leBytes 4 0x50414E53 ++ leBytes 2 0x0100 ++ List.replicate 24 0 ++ leBytes 2 3 ++ List.replicate 32 0 ++
  leBytes 8 256 ++ leBytes 8 0 ++ List.replicate 32 7 ++ List.replicate 144 0
theorem test_met_restore (hd : Config.sm3 [] = List.replicate 32 7) (hv : Config.stateVer (State.reset.dev.getF fSEC_FW_VERSION []) = 3) :
    acceptsB haltedZ.dev 0x17 hA = true ∧ haltedZ.dev.tripped = false ∧ haltedZ.dev.seen.sched.image = some imgZ ∧
    haltedZ.dev.seen.srcSpace hA.src 0x100000000000 256 false false ≠ .bad ∧
    (haltedZ.dev.seen.readSource hA.src 0x100000000000 256 ⟨true, []⟩).1 = some (List.replicate 256 0) ∧
    ((haltedZ.dev.pokes 0x100000000000 snapB).seen.readSource hA.src 0x100000000000 256 ⟨true, []⟩).1 = some snapB ∧
    ((haltedZ.dev.pokes 0x100000000000 snapB).seen.readSource hA.src 0x100000000000 256 ⟨true, []⟩).2.restoreStatus imgZ snapB 256 =
      .ok := by
  refine ⟨by decide +kernel, by decide +kernel, by decide +kernel, by decide +kernel, by decide +kernel, by decide +kernel, ?_⟩
  generalize hD : ((haltedZ.dev.pokes 0x100000000000 snapB).seen.readSource hA.src 0x100000000000 256 ⟨true, []⟩).2 = D
  have h1 : D.getF fSEC_FW_VERSION [] = State.reset.dev.getF fSEC_FW_VERSION [] := by subst hD; decide +kernel
  have h2 : (!D.canServe imgZ || !D.domainsOn) = false := by subst hD; decide +kernel
  have h3 : snapB.drop 0x100 = [] := by decide +kernel
  unfold Dev.restoreStatus
  simp only [h1, h2, h3, hd, hv]
  have h4 : field snapB 0x1E 2 = 3 ∧ field snapB 0 4 = 0x50414E53 ∧ field snapB 4 2 = 0x0100 ∧ field snapB 0x40 8 = 256 ∧
      (snapB.drop 0x20).take 32 = imgZ.digest ∧ (snapB.drop 0x50).take 32 = List.replicate 32 7 ∧ imgZ.multi = false := by decide +kernel
  obtain ⟨a, b, c, e, f, g, k⟩ := h4
  simp [a, b, c, e, f, g, k]
theorem test_met_restore_end :
    (let s := st fun d => { d with long := some ⟨⟨hA, 0x17, 5⟩, .restore snapB⟩, snaps := [(0, State.reset.dev.stateBlock)] }
     s.dev.long = some ⟨⟨hA, 0x17, 5⟩, .restore snapB⟩) ∧
    (Config.stateBlockLen 0 = 0 → [(0, State.reset.dev.stateBlock)].find? (fun e => decide (stateBytes e.1 =
      (snapB.drop 0x100).take (field snapB 0x48 8))) = some (0, State.reset.dev.stateBlock)) := by
  refine ⟨by decide +kernel, fun h => ?_⟩
  have h3 : snapB.drop 0x100 = [] := by decide +kernel
  simp [stateBytes, h, h3]

/-- MonitorSampleCounts: channel 63 watches the power source with a limit; a sample past it, at it, and one within the ms. -/
def watching (unit : Nat) (last : List (Nat × Nat) := []) : State := st fun d => { (d.setWord .rMON_CFG [63]
    (BitVec.ofNat 64 (7 * 2 ^ 61 + 11 * 2 ^ 48 + unit * 2 ^ 40 + 4 * 2 ^ 32 + 100))).setWord .rMON_LIMIT [63] 200 with monLast := last }
theorem test_met_monitor_sample :
    (63 < 64 ∧ (watching 0xFF).dev.flag fMON_CFG_ENABLE [63] = true ∧
      (watching 0xFF).dev.getF fMON_CFG_SOURCE [63] = (11 : Byte).toNat ∧ (watching 0xFF).dev.getF fMON_CFG_UNIT [63] = 0xFF) ∧
    ((watching 0).dev.getF fMON_CFG_SOURCE [63] = (11 : Byte).toNat ∧
      (watching 0).dev.getF fMON_CFG_UNIT [63] = (0 : Byte).toNat) ∧
    ((watching 0).dev.flag fMON_CFG_LIMIT_EN [63] = true ∧ (watching 0).dev.flag fMON_CFG_ABOVE [63] = true ∧
      signed 32 ((watching 0).dev.getF fMON_LIMIT_LIMIT [63]) = 200 ∧
      signed 32 ((watching 0).dev.getF fMON_CFG_BASE [63]) = 100) ∧
    Tab.find (watching 0 [(63, 5)]).dev.monLast 63 = some 5 ∧ ¬ (5 + 9 * 800000 ≤ (watching 0 [(63, 5)]).dev.sched.ref) := by
  decide +kernel
/-- BASE 100 and SHIFT 4: a sample of 201 falls into bin 7, and into MIN and MAX (R370). -/
theorem test_monitor_bin :
    let d := (watching 0).dev.sample 11 0 201
    d.getF fMON_BIN_BIN_HI [63, 3] = 1 ∧ d.getF fMON_MINMAX_MIN [63] = 201 ∧ d.getF fMON_MINMAX_MAX [63] = 201 := by decide +kernel
/-- RegistersAreWritten: DEV_CTL, a reserved bit of it, a read-only register, an Expert field with EXPERT_ENABLE 0. -/
theorem test_met_write_reg : acceptsB (owned .ready).dev 0x31 hA = true ∧ regAtAddress 0x100 = none ∧
    regAtAddress 0x7F0000000010 = some (.rDEV_CTL, []) ∧ RegName.rDEV_CTL ≠ .rCLK_PD_CTL ∧ reservedClear .rDEV_CTL 2 = false ∧
    (owned .ready).dev.seen.writeOk .rDEV_CTL [] 1 = true ∧ (owned .ready).dev.seen.retrainBusy .rDEV_CTL 1 = false ∧
    (fDEV_IDENT_PART.acc = .ro ∧ fDEV_IDENT_PART ∈ RegName.rDEV_IDENT.fields ∧
      bits 0 fDEV_IDENT_PART.hi fDEV_IDENT_PART.lo ≠
        bits ((owned .ready).dev.seen.readReg .rDEV_IDENT []).toNat fDEV_IDENT_PART.hi fDEV_IDENT_PART.lo) ∧
    (owned .ready).dev.seen.flag fDEV_CTL_EXPERT_ENABLE [] = false ∧
    (∃ f ∈ RegName.rMEM_CTL.fields, f.acc = .rw ∧ f.expert = true) := by decide +kernel
theorem test_met_register_rows :
    (owned .ready).dev.seen.writeOk .rMEM_CTL [0] (putBits 9 5 5 1) = true ∧ 0 ∉ (owned .ready).dev.seen.retraining ∧
    ((running).dev.seen.writeOk .rMEM_CTL [0] (putBits 9 5 5 1) = true ∧ running.dev.seen.run ≠ .ready ∧ running.dev.seen.run ≠ .loaded) ∧
    (0 ∈ (st fun d => { d with retraining := [0] }).dev.retraining ∧
      (st fun d => { d with retraining := [0] }).dev.flag fMEM_STAT_FAILED [0] = false) ∧
    (owned .ready).dev.seen.writeOk .rCLK_PD_CTL [] 0xFEFFFFFFFF = true ∧ (owned .ready).dev.seen.pdStatus 0xFEFFFFFFFF = .ok ∧
    (let d := (st fun d => d.setWord .rCLK_PD_STAT [] 0xFEFFFFFFFF).dev
     d.up = true ∧ d.domainOn 32 = false ∧ bit (d.word .rCLK_PD_CTL []).toNat 32 = true) := by decide +kernel

/-- FencesComplete: the last matrix position of a yard, serving or not, fenced or not; a position that there is not. -/
theorem test_met_fences : acceptsB (owned .ready).dev 0x22 hA = true ∧ acceptsB (owned .ready).dev 0x23 hA = true ∧
    positionExists 3 0 17 = true ∧ positionExists 3 0 18 = false ∧ positionExists 4 0 0 = false ∧
    (owned .ready).dev.seen.cmdFenced 3 0 17 = false ∧ (owned .ready).dev.seen.recFailed 3 0 17 = false ∧
    (running.dev.run.inRun = true ∧ running.dev.sched.stop = none ∧ (running.dev.seen.servedBy 3 0 16).isSome = true) ∧
    (owned .ready fun d => d.markFence 3 0 17 true).dev.seen.cmdFenced 3 0 17 = true := by decide +kernel
/-- A fence shows in the position's own bit, and no neighbour's. -/
theorem test_fence_marks : ((State.reset.dev.markFence 1 1 8 true).cmdFenced 1 1 8 = true) ∧
    (State.reset.dev.markFence 1 1 8 true).cmdFenced 1 2 0 = false ∧ (State.reset.dev.markFence 1 1 8 true).cmdFenced 2 1 8 = false := by
  decide +kernel

/-- FirmwareStaging: data after a header, the two flash operations that finish, the loft complete, empty, committing. -/
def lofted (l : LoftState) (hdr : List Nat) (body : List Nat) (ops : List FlashOp := []) : State :=
  owned .ready fun d => { d with flash := { d.flash with loft := l, loftHdr := hdr, loftBody := body, ops := ops } }
theorem test_met_firmware : acceptsB (owned .ready).dev 0x40 hA = true ∧ acceptsB (owned .ready).dev 0x41 hA = true ∧
    acceptsB (owned .ready).dev 0x42 hA = true ∧ (owned .ready).dev.seen.headerOk defaultFirmware = true ∧
    (let d := (lofted .staging defaultFirmware []).dev.seen
     d.committing = false ∧ d.flash.loft = .staging ∧ (0 : BitVec 32).toNat = d.flash.loftBody.length ∧
      (0 : BitVec 32).toNat + (256 : BitVec 32).toNat = field d.flash.loftHdr 0x18 8 ∧
      d.srcSpace hA.src 0x100000000000 256 false true ≠ .bad ∧ (d.readSource hA.src 0x100000000000 256 ⟨true, []⟩).1 =
        some (List.replicate 256 0)) ∧
    (lofted .complete defaultFirmware (List.replicate 256 0)).dev.seen.flash.loft = .complete ∧
    (owned .ready).dev.seen.flash.loft = .empty ∧ field defaultFirmware 0x0D 1 = 1 ∧
    (lofted .complete [] []).dev.flash.programming = false ∧
    (lofted .staging defaultFirmware [] [⟨some ⟨hA, 0x40, 5⟩, none⟩]).dev.flash.ops = ⟨some ⟨hA, 0x40, 5⟩, none⟩ :: [] := by decide +kernel

/-- WindowsAndDoorbellsComplete: the last window of HA at its smallest and largest, and one that a descriptor names. -/
def copy0 : Desc := { kind := 0, prio := false, dev := 0, len := 64, src := 0x100000000000, dst := 0x200000000000,
                      counts := [2], sstr := [64], dstr := [64], tag := 0, p := 0, tdim := 0, anchor := 0xFFFF, fixlat := 0,
                      cperiod := 0, tperiod := 0, inj := {} }
def ctx0 : XCtx := { no := 15, desc := copy0, issue := 100, due := 900, limit := 2, tiles := [⟨0, 7, 0, false⟩] }
def moving (c : XCtx) (reqs : List XReq := []) (f : Dev → Dev := id) : State :=
  running fun d => f { d with xfer := [(0, { ctxs := [c], reqs := reqs })] }
theorem test_met_windows : acceptsB State.reset.dev 0x60 hA = true ∧ acceptsB State.reset.dev 0x61 hA = true ∧
    (511 : BitVec 16).toNat < 1024 ∧ hA.src = .host (windowPort 511) ∧ bit (3 : Byte).toNat 2 = false ∧
    (0x400000000 : Word).toNat % 4096 = 0 ∧ (0x400000000 : Word).toNat ≤ 0x400000000 ∧ (4096 : Word).toNat % 4096 = 0 ∧
    State.reset.dev.seen.windowNamed 511 = false ∧
    (moving { ctx0 with desc := { copy0 with src := 0x400000000000 } }).dev.seen.windowNamed 0 = true := by decide +kernel
def stopped0 : XStop := ⟨4, 0, 1, 0, true⟩
theorem test_met_resume_transfer :
    (let s := running fun d => { d with xfer := [(0, { ctxs := [{ ctx0 with stop := some stopped0 }], faults := [15] })] }
     acceptsB s.dev 0x62 hA = true ∧ (s.dev.seen.x 0).faults = 15 :: [] ∧
      (s.dev.seen.x 0).ctxs.find? (fun k => k.no = 15) = some { ctx0 with stop := some stopped0 } ∧ [1] = copy0.coords 1) := by
  decide +kernel
/-- Rings that are on, with the largest tail that a ring of 16 takes, and off. -/
def rings : State := st fun d => { d with portA := { ring1 := { sqEn := true, sqSize := 4, rqEn := true, rqSize := 4 } } }
theorem test_met_doorbells : ((rings.dev.port .ha).ring 1).sqEn = true ∧ ((rings.dev.port .ha).ring 1).rqEn = true ∧
    (15 : Word).toNat < 2 ^ ((rings.dev.port .ha).ring 1).rqSize ∧ ¬(16 : Word).toNat < 2 ^ ((rings.dev.port .ha).ring 1).sqSize ∧
    (rings.dev.port .ha).events = [] ∧ (∀ j : Fin 4, ((rings.dev.port .ha).ring j).waiting = []) ∧
    ((rings.dev.port .hb).ring 1).sqEn = false ∧ ((rings.dev.port .hb).ring 1).rqEn = false ∧
    (4 ≤ (0x104 : Word).toNat % 16 ∧ (12 : Word).toNat % 16 ≤ 12) ∧ ¬(4 ≤ (3 : Word).toNat % 16) := by decide +kernel

/-- PacketsAreFetched. -/
def fetching (b : Bool) : State := st fun d => { d with portA :=
  { ring0 := { sqEn := true, sqSize := 4, sqTail := 1, rqEn := b, rqSize := 4 }, cfg := { bme := true } } }
theorem test_met_fetch : (fetching true).dev.canFetch .ha 0 = true ∧ (fetching true).dev.boot.restarting = false ∧
    (fetching false).dev.canFetch .ha 0 = false ∧ (cmdRow ((0x1FF : BitVec 512).toNat % 256)).isNone = true ∧
    ((cmdRow ((0x0201 : BitVec 512).toNat % 256)).isSome = true ∧ packetOk (leBytes 64 (0x0201 : BitVec 512).toNat) = false) ∧
    ((1 : BitVec 512).toNat % 256 = 0x01 ∧ packetOk (leBytes 64 (1 : BitVec 512).toNat) = true) := by decide +kernel
/-- An IDENTIFY from a ring reserves its reply entry, and its reply uses it up (R314, R324). -/
theorem test_fetch_identify : (match exec (.commandFetch .ha 0 1 ⟨true, []⟩) (fetching true) with
    | .next t => (t.dev.portA.ring0.sqHead, t.dev.portA.ring0.used, t.dev.portA.ring0.reserved, t.dev.portA.ring0.rqTail)
    | .fault _ => (9, 9, 9, 9) | .refused _ => (9, 9, 9, 9)) = (1, 1, 0, 1) := by decide +kernel
/-- A message of the vendor that the configuration names, 65 bytes long with message type 0. -/
theorem test_met_sideband_message (v : BitVec 16) (hv : v.toNat = Config.vendorId % 65536) :
    (st fun d => { d with sideband := { addr := some 9 } }).dev.sidebandTakes v (List.replicate 65 0) = true := by
  unfold Dev.sidebandTakes
  rw [hv, decide_eq_true rfl, Bool.and_true]
  decide +kernel
theorem test_met_event : (let d := (st fun d => { d with portA := { ring0 := { rqEn := true, rqSize := 4 }, cfg := { bme := true },
                                                                      events := [rep] } }).dev
    (d.port .ha).events = rep :: [] ∧ (d.port .ha).canWrite = true ∧ (d.port .ha).ring0.rqEn = true ∧
      (d.port .ha).ring0.used + (d.port .ha).ring0.reserved < 2 ^ (d.port .ha).ring0.rqSize) ∧
    (State.reset.dev.port .ha).events = [] := by decide +kernel

/-- PortResetsComplete. -/
theorem test_met_ports : State.reset.dev.claim ≠ some (.host .hb) ∧
    ((State.reset.dev.port .ha).perst = false ∧ bit (State.reset.dev.word .rCLK_PD_STAT []).toNat 32 = true) ∧
    (State.reset.dev.run ≠ .off ∧ (State.reset.dev.port .hb).link = true ∧ (State.reset.dev.port .hb).cfgReady = true) ∧
    ((st fun d => { d with portA := { cfgReady := false } }).dev.port .ha).cfgReady = false ∧
    (let x := (st fun d => { d with portA := { msixMask := 2 ^ 63, msixPend := 2 ^ 63 } }).dev.port .ha
     x.cfg.fnMask = false ∧ bit x.msixPend 63 = true) := by decide +kernel

/-- TranslationEventsComplete: one context that waits for a translation, for a PRG Response, past the timeout. -/
def viaWindow : Desc := { copy0 with src := 0x400000000000 }
def waits (w : XlatWait) : State := moving { ctx0 with desc := viaWindow, wait := some w }
theorem test_met_translation :
    (waits (.translating 5)).dev.waiters .ha (fun w => decide (w = .translating 5)) = [(0, 15)] ∧
    ((waits (.translating 5)).dev.x 0).ctxs.find? (fun c => c.no = 15) = some { ctx0 with desc := viaWindow, wait := some (.translating 5) } ∧
    ((waits (.translating 5)).dev.port .ha).cfg.pri = false ∧
    ((waits (.translating 5)).dev.x 0).reqs = [] ∧
    (let s := moving { ctx0 with desc := viaWindow, wait := some (.translating 5) } [] fun d => { d with portA := { cfg := { pri := true, priAlloc := 1 } } }
     s.dev.waiters .ha (fun w => decide (w = .translating 5)) = [(0, 15)] ∧ (s.dev.port .ha).cfg.pri = true ∧ s.dev.pageExpiry .ha 5 = none ∧
      (s.dev.pageRequests .ha).length < (s.dev.port .ha).cfg.priAlloc) ∧
    (waits (.paging 5 0)).dev.waiters .ha (fun w => match w with | .paging g' _ => g' == 5 | _ => false) = [(0, 15)] ∧
    (State.reset.dev.ats .ha).invalidating = [] := by decide +kernel
theorem test_met_page_timeout :
    let s := running fun d => { d with
      xfer := [(0, { ctxs := [{ ctx0 with desc := viaWindow, wait := some (.paging 5 7200000) }] })]
      sched := { d.sched with ref := 7200000 } }
    s.dev.waiters .ha (fun w => match w with
      | .paging _ expiry => decide (s.dev.sched.ref ≥ expiry) | _ => false) = [(0, 15)] := by
  decide +kernel

/-- A copy into DDR5, and one into a host window. -/
def toTier : Desc := { copy0 with src := 0x200000000000, dst := 0x100000000000 }
def intoWindow : Desc := { copy0 with dst := 0x400000000000 }
/-- The yard store's first stalls allocated, as a loaded image's BUFFER record has them. -/
def stalls (d : Dev) : Dev := d.markStalls ⟨0, 0, 0xFF, 0, 0, 0x10000⟩
/-- RequestsIssueAndComplete: from a tier, to a tier, through a window, through one that translates, whose port is down, not valid. -/
theorem test_met_request_issue : xNo x0 = 0 ∧ ((moving ctx0).dev.x 0).ctxs.find? (fun c => c.no = 15) = some ctx0 ∧
    (moving ctx0).dev.xWorks 0 = true ∧ ctx0.stop = none ∧ ctx0.wait = none ∧ ctx0.desc.kind ≠ 4 ∧ ctx0.chunk < ctx0.limit ∧
    ((moving ctx0).dev.x 0).reqs.length < 64 ∧ ctx0.desc.kind ≠ 5 ∧ ctx0.desc.kind ≠ 2 ∧ ctx0.desc.kind < 2 ∧
    (tierController (copy0.srcOf 0 + 0) = some 3 ∧ tierController (copy0.dstOf 0 + 0) = none ∧ copy0.windowOf 0 0 = none) ∧
    (moving ctx0).dev.gradComing 19 + (moving ctx0).dev.pieceLen copy0 0 0 ≤ 0x100000 ∧
    (tierController (toTier.srcOf 0 + 0) = none ∧ tierController (toTier.dstOf 0 + 0) = some 3 ∧ toTier.windowOf 0 0 = none ∧
      (moving ctx0 [] stalls).dev.checkAccess (toTier.srcOf 0 + 0) 64 = .good ∧ (moving ctx0 [] stalls).dev.errs = [] ∧
      (∀ a ∈ addrRange (toTier.srcOf 0 + 0) 64, (moving ctx0 [] stalls).dev.inFlightByte a = false)) ∧
    viaWindow.windowOf 0 0 = some (0, 0, false) ∧ intoWindow.windowOf 0 0 = some (0, 0, true) ∧
    (moving ctx0 [] withWindow).dev.windowCheck 0 0 64 false = .go none ∧
    (moving ctx0 [] fun d => (withWindow d).setF fXFR_WIN_CFG_AT [0] 1).dev.windowCheck 0 0 64 false = .translate 0 ∧
    (moving ctx0 [] fun d => { d with portA := { link := false } }).dev.portDown (windowPort 0) = true ∧
    ((moving ctx0).dev.portDown (windowPort 0) = false ∧ (moving ctx0).dev.windowValid 0 = false) := by decide +kernel
def req0 : XReq := { id := 9, ctx := 15, chunk := 1, off := 0, len := 64, deadline := 900, stage := .reading, sc := 100 }
/-- The same request of a descriptor that writes DDR5, its bytes there. -/
def ctxW : XCtx := { ctx0 with desc := toTier }
def reqW : XReq := { req0 with stage := .writing, data := [(0, [1, 2, 3] ++ List.replicate 61 0)] }
/-- And of an injection, whose buffer takes the bytes. -/
def ctxI : XCtx := { ctx0 with desc := { copy0 with kind := 2, counts := [], inj := { flits := 2, laps := 1, interval := 1 } } }
def clean : TierErr := ⟨false, 0, 0, 0⟩
theorem test_met_request_completion :
    (let s := moving ctx0 [req0] stalls
     (s.dev.x (xNo x0)).reqs[0]? = some req0 ∧ (s.dev.x 0).ctxs.find? (fun c => c.no = req0.ctx) = some ctx0 ∧ ctx0.desc.kind ≠ 2 ∧
      s.dev.servedNext 3 = some ⟨0, ctx0, req0⟩ ∧ tierController (copy0.srcOf 1 + 0) = some 3 ∧
      s.dev.checkAccess (copy0.srcOf 1 + 0) 64 = .good ∧ s.dev.errs = [] ∧
      (∀ a ∈ addrRange (copy0.srcOf 1 + 0) 64, s.dev.inFlightByte a = false)) ∧
    (let s := moving ctxW [reqW]
     s.dev.servedNext 3 = some ⟨0, ctxW, reqW⟩ ∧ tierController (toTier.dstOf 1 + 0) = some 3 ∧
      s.dev.checkAccess (toTier.dstOf 1 + 0) reqW.whole.length = .good ∧ toTier.clash = false ∧ s.dev.errs = []) ∧
    (let s := moving ctxI [req0]
     ctxI.desc.kind = 2 ∧ s.dev.servedNext 3 = some ⟨0, ctxI, req0⟩ ∧
      tierController (ctxI.desc.srcOf 1 + 0 + s.dev.readAdd ctxI.desc) = some 3 ∧
      s.dev.checkAccess (ctxI.desc.srcOf 1 + 0 + s.dev.readAdd ctxI.desc) 64 = .good ∧ req0.page = none) := by decide +kernel
theorem test_met_pcie_completion :
    (moving { ctx0 with desc := viaWindow } [req0]).dev.x 0 = { ctxs := [{ ctx0 with desc := viaWindow }], reqs := [req0] } ∧
    viaWindow.windowOf 1 0 = some (0, 64, false) ∧ intoWindow.windowOf 1 0 = some (0, 64, true) ∧ req0.page = none ∧
    (List.replicate 64 (0 : Byte)).length = req0.len ∧ (moving ctx0).dev.portDown (windowPort 0) = false := by decide +kernel
/-- The bytes of a write that its controller serves stand at its destination (R235). -/
theorem test_request_writes : (match exec (.requestCompletion x0 0 clean) (moving ctxW [reqW]) with
    | .next t => ((List.range 4).map fun i => t.dev.peek (0x100000000040 + i), (t.dev.x 0).reqs.map (·.stage))
    | .fault _ => ([], []) | .refused _ => ([], [])) = ([1, 2, 3, 0], [.noticed]) := by decide +kernel

/-- TransfersProgress. -/
def fix0 : XFix := { no := 7, desc := { copy0 with fixlat := 64, cperiod := 4 }, issue := 0 }
theorem test_met_transfers :
    (let s := running fun d => { d with xfer := [(0, { waiting := [ctx0] })] }
     (s.dev.x 0).waiting = ctx0 :: [] ∧ (s.dev.x 0).ctxs.length < 16 ∧ ctx0.desc.kind ≠ 4 ∧
      (s.dev.takeContext 0).receives = []) ∧
    (let c := { ctx0 with tiles := [⟨0, 7, 128, false⟩] }
     ((moving c).dev.x 0).ctxs.find? (fun c => c.no = 15) = some c ∧ c.stop = none ∧ c.tiles = [⟨0, 7, 128, false⟩] ∧
      c.desc.tiles = 1 ∧ (moving c).dev.tileDone 0 c ⟨0, 7, 128, false⟩ = true ∧ ((moving c).dev.x 0).waiting = []) ∧
    (let c := { ctx0 with desc := { copy0 with kind := 1, counts := [2, 3], sstr := [64, 128], dstr := [64, 128], tdim := 1, p := 0,
                                               tperiod := 16 }, due := 84 }
     c.desc.kind = 1 ∧ c.full = false ∧ (moving c).dev.xWorks 0 = true ∧ c.tiles.length < c.desc.tiles ∧
      c.due + (c.tiles.length - c.desc.p) * c.desc.tperiod ≤ (moving c).dev.sched.sc ∧
      ((moving c).dev.takeEntry 0 (c.due + c.tiles.length * c.desc.tperiod) c.desc.cause none 3 0 (xUnit 0)).1 = some 0) ∧
    (let c := { ctx0 with stop := some { stopped0 with recorded := false } }
     c.stop = some { stopped0 with recorded := false } ∧ (∀ r ∈ ((moving c).dev.x 0).reqs, r.ctx ≠ 15) ∧
      (moving c [] fun d => d.setF fXFR_CTL_FAULT_EVENT [] 0).dev.flag fXFR_CTL_FAULT_EVENT [] = false) := by decide +kernel
/-- A RECV whose bytes landed before it took its context. -/
def received : State :=
  running fun d => { d with xfer := [(0, { waiting := [{ ctx0 with desc := { copy0 with kind := 4, tag := 6 } }] })]
                            landed := [(landedKey 0 6, 128)] }
theorem test_met_received : (received.dev.x (xNo x0)).waiting = [{ ctx0 with desc := { copy0 with kind := 4, tag := 6 } }] ∧
    (received.dev.x (xNo x0)).ctxs = [] ∧ copy0.len * copy0.chunks ≤ Tab.get 0 received.dev.landed (landedKey 0 6) ∧
    (∀ k, k ≠ xNo x0 → (received.dev.x k).ctxs = [] ∧ (received.dev.x k).waiting = []) ∧
    received.dev.receives.length = 1 :=
  ⟨by decide +kernel, by decide +kernel, by decide +kernel,
   fun k h => by
     have h0 : k ≠ 0 := h
     obtain ⟨v, hv⟩ : ∃ v, received.dev.xfer = [(0, v)] := ⟨_, rfl⟩
     simp [Dev.x, Tab.get, hv, Tab.find, h0], by decide +kernel⟩
def fixS : XFix := { fix0 with desc := { copy0 with kind := 3, fixlat := 64, cperiod := 4 }, next := 2, sent := 0 }
def fixG : XFix := { fix0 with desc := { copy0 with kind := 5, dst := 19 } }
theorem test_met_fixed_transfers :
    (let s := running fun d => stalls { d with xfer := [(0, { fixed := [{ fix0 with desc := { fix0.desc with src := 0x200000000000, dst := 0x200000000400 } }] })] }
     let c : XFix := { fix0 with desc := { fix0.desc with src := 0x200000000000, dst := 0x200000000400 } }
     (s.dev.x 0).fixed.find? (fun c => c.no = 7) = some c ∧ c.desc.kind ≠ 5 ∧ s.dev.isStopped (xUnit 0) = false ∧
      c.next < c.desc.chunks ∧ c.issue + c.next * c.desc.cperiod ≤ s.dev.sched.sc ∧ s.dev.xWorks 0 = true ∧ c.desc.clash = false ∧
      ((chunkFlits (c.desc.srcOf 0) c.desc.len).drop 0).takeWhile (fun f => decide (0 + f.2.2.2.2.2 ≤ s.dev.sched.sc)) ≠ [] ∧
      (∀ f ∈ chunkFlits (c.desc.srcOf 0) c.desc.len, s.dev.checkAccess (c.desc.srcOf 0 + f.1) f.2.1 = .good ∧
        ∀ a ∈ addrRange (c.desc.srcOf 0 + f.1) f.2.1, s.dev.inFlightByte a = false) ∧
      s.dev.errs = [] ∧ (c.desc.chunks ≤ 2 ∧ ({ c with next := 2 } : XFix).placed (c.desc.chunks - 1) ≤ s.dev.sched.sc)) ∧
    (fixS.desc.kind = 3 ∧ fixS.desc.chunks ≤ fixS.next ∧ fixS.outbox = [] ∧ 0 < fixS.desc.len ∧ fixS.sent ≤ fixS.judged ∧
      fixS.judged < fixS.desc.chunks ∧ fixS.placed fixS.judged ≤ running.dev.sched.sc) ∧
    (let s := running fun d => { d with xfer := [(0, { fixed := [fixG] })] }
     (s.dev.x 0).fixed.find? (fun c => c.no = 7) = some fixG ∧ fixG.desc.kind = 5 ∧ s.dev.xWorks 0 = true ∧
      s.dev.gradComing 19 + 64 ≤ 0x100000 ∧ s.dev.checkAccess (fixG.desc.srcOf 0) 64 = .good ∧ s.dev.errs = []) ∧
    (let c := { ctx0 with desc := { copy0 with kind := 5, dst := 19 }, outbox := [(0, 0, [1, 2])] }
     ((moving c).dev.x 0).ctxs.find? (fun c => c.no = 15) = some c ∧ c.desc.kind = 5 ∧
      c.outbox.find? (fun o => decide (o.1 * c.desc.len + o.2.1 = (c.tiles.map (·.done)).foldl (· + ·) 0)) = some (0, 0, [1, 2]) ∧
      (Tab.get [] (moving c).dev.gradPort 19).length + 2 ≤ 0x100000) := by decide +kernel
/-- What a completion at a controller sends on is carried to its destination's endpoint. -/
theorem test_met_carries : ∃ f ∈ ((moving ctx0 [req0]).dev.sendData 0 copy0 req0 (40, 0) [1, 2]).dyn,
    ∃ off l, f.cargo = .data 0 9 off l := by
  refine ⟨_, List.getLast_mem (by decide +kernel), ?_⟩
  exact ⟨0, [1, 2], by decide +kernel⟩
/-- ManagementChannelsComplete. -/
theorem test_met_sideband : State.reset.dev.sidebandUp = true ∧
    (st fun d => { d with sideband := { addr := some 9 } }).dev.sidebandUp = true ∧ (st fun d => { d with sideband := { addr := some 9 } }).dev.sideband.addr ≠ none ∧
    State.reset.dev.boot.fwReady = true ∧
    (st fun d => { d with sideband := { addr := some 9 }, boot := { d.boot with fwReady := false } }).dev.boot.fwReady = false ∧
    (st fun d => { d with sideband := { waiting := [rep] } }).dev.sideband.waiting = rep :: [] := by decide
def spdmAt (v c a : Bool) : State := st fun d => { d with portA := { spdm := { version := v, caps := c, algs := a } } }
theorem test_met_spdm : ((spdmAt true true true).dev.port .ha).link = true ∧ ((spdmAt true true true).dev.port .ha).cfgReady = true ∧
    (spdmAt true true true).dev.flag fSEC_ID_FAIL [] = false ∧ ((spdmAt true false false).dev.port .ha).spdm.version = true ∧
    ((spdmAt true true false).dev.port .ha).spdm.caps = true ∧ ((spdmAt true true true).dev.port .ha).spdm.algs = true ∧
    ((spdmAt true true false).dev.port .ha).spdm.algs = false ∧ bit (0x200 : BitVec 32).toNat 9 = true ∧
    bit (0x40 : BitVec 32).toNat 6 = true ∧ (7 : Byte).toNat ≤ 7 ∧ 1 ≤ (1 : Byte).toNat ∧
    (st fun d => d.setF fSEC_ID_FAIL [] 1).dev.flag fSEC_ID_FAIL [] = true ∧ (0x11 : Byte) ≠ 0x12 := by decide +kernel

/-- BootCompletes: OFF, and BOOT at the stages that the clauses name. -/
def booting (n : Nat) (f : Dev → Dev := id) : State :=
  st fun d => f { d with run := .boot, boot := { d.boot with stage := n, fwReady := false } }
theorem test_met_boot : (st fun d => { d with run := .off }).dev.run = .off ∧
    (booting 0 fun d => { d with boot := { d.boot with resetPin := false } }).dev.boot.resetPin = false ∧
    ((booting 1).dev.run = .boot ∧ (booting 1).dev.boot.stopped = false ∧ (booting 1).dev.boot.resetPin = true) ∧
    ({ (booting 1) with part := { verifies := false } } : State).part.verifies = false ∧ (booting 1).part.verifies = true ∧
    ((booting 2 fun d => { d with flash := { d.flash with activeHdr := [] } }).dev.flash.loft ≠ .committed ∧
      (booting 2 fun d => { d with flash := { d.flash with activeHdr := [] } }).dev.firmwareKey [] [] = none) ∧
    (booting 8).dev.boot.testMode = false ∧ (booting 8 fun d => { d with boot := { d.boot with testMode := true } }).dev.boot.testMode = true ∧
    (st fun d => { d with flash := { d.flash with copyA := {}, copyB := {} } }).dev.flash.best = none := by decide +kernel
theorem test_met_restart : State.reset.dev.run ≠ .off ∧ State.reset.dev.run ≠ .boot ∧ State.reset.dev.boot.restarting = false ∧
    (st fun d => { d with boot := { d.boot with restarting := true }, cut := [⟨hA, 0x13, 5⟩] }).dev.boot.restarting = true ∧
    (st fun d => { d with long := some ⟨⟨hA, 0x10, 5⟩, .load 0 0 []⟩ }).dev.long = some ⟨⟨hA, 0x10, 5⟩, .load 0 0 []⟩ := by decide
/-- Firmware that ROM key 0 has signed, where its identifier, digest and signature are those of the header. -/
theorem test_met_firmware_key (hi : Config.romKeyId 0 % 2 ^ 64 = field defaultFirmware 0x20 8)
    (hs : headerSigned defaultFirmware (Config.romKey 0) = true)
    (hd : Config.sm3 (List.replicate 256 0) = (defaultFirmware.drop 0x28).take 32) :
    State.reset.dev.firmwareKey defaultFirmware (List.replicate 256 0) = some 0 ∧
    State.reset.dev.signerOf hA.src defaultFirmware = .key (Config.romKey 0) := by
  have hr : State.reset.dev.romKeyFor (field defaultFirmware 0x20 8) = some 0 := by
    unfold Dev.romKeyFor
    have h0 : bit State.reset.dev.cfg.revoked 0 = false := by decide
    rw [show List.range 4 = 0 :: [1, 2, 3] from rfl, List.find?_cons_of_pos (by simp only [hi, h0, decide_true, Bool.not_false, Bool.and_self])]
  have ho : (State.reset.dev.headerOk defaultFirmware && decide (field defaultFirmware 0x0D 1 = 1) &&
      decide (State.reset.dev.cfg.minSvn ≤ field defaultFirmware 0x10 2) &&
      decide ((List.replicate 256 0).length = field defaultFirmware 0x18 8)) = true := by decide +kernel
  constructor
  · unfold Dev.firmwareKey
    simp only [ho, hd, hr, hs, decide_true, Bool.and_self, if_true]
  · unfold Dev.signerOf
    simp only [hr]

/-- Every boot stage of Table 17-2 counts, and stage 9 is READY (R341). -/
theorem test_boot_stage : (match exec (.bootStageComplete true 0xFFF [] 0 0) (booting 0) with
    | .next t => t.dev.boot.stage | .fault _ => 99 | .refused _ => 99) = 1 := by decide +kernel

/-! ### Engines -/

/-- MatrixBaseComplete: a stream that stands at word 3, a RESHAPE 64 sc old, a bubble of WIDE that is due. -/
def pos0 : StreamPos := ⟨3, [], 100, false⟩
def array (m : MState) (f : Dev → Dev := id) : State := running fun d => f { d with mEng := [(0, m)] }
theorem test_met_matrix : Tab.find (running fun d => { d with sched := { d.sched with streams := [(0, pos0)] } }).dev.sched.streams (mNo m0) =
      some pos0 ∧ ((array { reshape := some (36, 1) }).dev.m m0).reshape = some (36, 1) ∧
    (array { reshape := some (36, 1) }).dev.sched.sc ≥ 36 + 64 ∧ (array { reshape := some (36, 1) }).dev.arrayWorks m0 = true ∧
    (array { count0 := 1 } fun d => d.setF fENG_MSTAT_SHAPE [0, 0] 1).dev.bubbleDue m0 = true := by decide +kernel
theorem test_met_loops : Tab.find (running fun d => { d with sched := { d.sched with streams := [(16, pos0), (24, pos0)] } }).dev.sched.streams
      (vNo v0) = some pos0 ∧
    Tab.find (running fun d => { d with sched := { d.sched with streams := [(16, pos0), (24, pos0)] } }).dev.sched.streams (sNo s0) =
      some pos0 ∧ val32 0x7FC00000 = .nan := by decide +kernel
/-- A bubble is counted in ENG_MBUBBLE (R78). -/
theorem test_bubble_counts : (match exec (.bubble m0) (array { count0 := 1 } fun d => d.setF fENG_MSTAT_SHAPE [0, 0] 1) with
    | .next t => (t.dev.word .rENG_MBUBBLE [0, 0]).toNat | .fault _ => 99 | .refused _ => 99) = 1 := by decide +kernel

/-- ProductsComplete and StepValues: a BF16 product in SQUARE whose first step is due, with its mangers filled and empty. -/
def run0 : MmaRun := { f := mmaF, home := 0, first := 100 }
def full0 : List (Nat × List Entry) := (shapeOf 0).mangers.map fun k => (k, [⟨List.replicate 16 0x3F80, []⟩])
def read0 : TileRead := ⟨true, 0, [(0, ⟨[], []⟩), (1, ⟨[], []⟩)], []⟩
theorem test_met_product :
    (array { mmas := [run0] }).dev.readDue m0 true = some (0, run0) ∧
    ((array { mmas := [{ run0 with readRow := 1 }], reads := [read0] }).dev.feedDue m0 true =
        some (0, { run0 with readRow := 1 }, read0, 0) ∧ (read0.groups.map (·.1)).Nodup ∧
      (∀ g ∈ read0.groups, (Tab.get [] ((array { mmas := [{ run0 with readRow := 1 }], reads := [read0] }).dev.m m0).mangers
        (mangerKey true g.1)).length < 32)) ∧
    (let s := array { mmas := [run0], mangers := full0 }
     s.dev.stepDue m0 = some (0, run0) ∧ run0.rate ≥ 4 ∧ (s.dev.m m0).gapKept run0 (s.dev.shapeCode m0) s.dev.sched.sc = true ∧
      (∀ k ∈ (shapeOf (s.dev.shapeCode m0)).mangers, Tab.get [] (s.dev.m m0).mangers k ≠ [])) ∧
    (let s := array { mmas := [run0] }
     s.dev.stepDue m0 = some (0, run0) ∧ s.dev.run.inRun = true ∧ s.dev.sched.stop = none ∧
      ∃ k ∈ (shapeOf (s.dev.shapeCode m0)).mangers, Tab.get [] (s.dev.m m0).mangers k = []) := by decide +kernel
/-- 1 × 1 in BF16, added to 0: +1 in FP32 (R64). -/
theorem test_step_value : (cellStep 0 [Val.ofInt 1] [Val.ofInt 1]).1 = 0x3F800000 := by decide +kernel

/-- DrainsComplete: a slot that is free and one that is not, a row that is due, a verdict that is due. -/
def drain0 : DrainRun := { f := mdrnF, addr := 3, issue := 100, undef := false, profile := [], side := none, sideOrg := (0, 0),
                           walk := none, walkOrg := (0, 0), tol := 0, checks := {} }
theorem test_met_drain : (mdrnF.dest = 0 → bit (running.dev.word .rENG_VSLOT [0, 0]).toNat (8 * 3 + 7) = false) ∧
    (mdrnF.dest = 0 ∧ bit ((running fun d => d.setWord .rENG_VSLOT [0, 0] 0x80000000).dev.word .rENG_VSLOT [0, 0]).toNat (8 * 3 + 7) = true) ∧
    running.dev.run.inRun = true ∧ running.dev.sched.stop = none ∧
    (array { drains := [drain0] }).dev.rowReadDue m0 = some (0, drain0) ∧
    (let r := { drain0 with read := 1, rows := [(90, none, List.replicate 256 0)] }
     (array { drains := [r] }).dev.rowDue m0 = some (0, r, 90, none, List.replicate 256 0)) ∧
    (let r := { drain0 with next := 256, issue := 0 }
     (array { drains := [r] } fun d => { d with sched := { d.sched with sc := 279 } }).dev.verdictDue m0 = some r) := by decide +kernel

/-- ResultsAreWritten: each kind of result, due in this sc. -/
def flying (t : Target) : State := running fun d => { d with sched := { d.sched with inFlight := [⟨100, 0, t⟩] } }
theorem test_met_result : running.dev.resultDue = none ∧ (∀ tg ∈ [Target.sreg s0 63 5, .sreg s0 0 5, .sregHigh s0 63 5, .areg s0 31 5,
      .vreg v0 63 false 0 [some 1], .vmask v0 15 0 [some true], .scatter [(0x200000000000, 255, 7)]],
    (flying tg).dev.resultDue = some ⟨100, 0, tg⟩) ∧ (flying (.scatter [])).dev.errs = [] ∧
    locate 0x200000000000 = .onchip 0 0 0 0 ∧ (flying (.scatter [])).dev.fencedPlace 0 0 0 = false := by decide +kernel
/-- Of two writes of one register in one sc the later issue wins, whichever stands first in the list (R142). -/
theorem test_later_issue_wins : (let s := running fun d => { d with sched := { d.sched with
      inFlight := [⟨100, 8, .sreg s0 5 8⟩, ⟨100, 7, .sreg s0 5 7⟩] } }
    match exec (.resultDelivery .none) s with
    | .next t => match exec (.resultDelivery .none) t with
      | .next u => u.dev.sRead s0 5
      | .fault _ => 0 | .refused _ => 0
    | .fault _ => 0 | .refused _ => 0) = 8 := by decide +kernel

/-- VectorMemoryComplete and FactorisationsComplete: places that are allocated. -/
def vmem : State := running fun d => (d.markStalls ⟨0, 3, 0, 0, 0, 0x10000⟩).markStalls ⟨0, 4, 0, 0, 0, 0x1000⟩
theorem test_met_vector_memory : fmtBytes 6 1024 = 512 ∧ vmem.dev.errs = [] ∧ vmem.dev.undrained 0 0 0 = false ∧
    placeOf (16 + 0) = some (8, 4) ∧
    vmem.dev.fencedPlace 0 3 0 = false ∧ (∀ o ∈ (List.range 512).map fun i => vmem.dev.vOff v0 { vldF with fmt := 6 } / 128 * 128 + i,
      o < spaceSize 3 ∧ (vmem.dev.run.inRun = true → vmem.dev.stallAllocated 0 3 0 o = true)) ∧
    (∀ o ∈ [0, 1, 4095], o < spaceSize 4 ∧ vmem.dev.stallAllocated 0 4 0 o = true ∧ vmem.dev.inFlightByte (onchipAddr 0 4 0 o) = false) := by
  decide +kernel
theorem test_met_factorisation : vmem.dev.fencedPlace 0 3 0 = false ∧
    vmem.dev.errs = [] ∧ (∀ o ∈ blockOffs (vmem.dev.blockBase v0 blockF 0) 1 1 ++ blockOffs (vmem.dev.diagBase v0 blockF 0) 1 1,
      o < spaceSize 3 ∧ vmem.dev.stallAllocated 0 3 0 o = true) ∧
    geF (Block.at [[0x3F800000]] 0 0) 0x00800000 = true := by decide +kernel
/-- ElementsAndSpecialValues: both kinds of operand, at the ends of the ranges. -/
theorem test_met_elements : (0x7FFFFFFF : BitVec 32) ≠ 0x80000000 ∧ 31 < 32 ∧ (laneVal 1 0x7F7F).isNan = false ∧
    (laneVal 1 0x7FC0).isNan = true ∧ ((-149 : Int) ≤ -149 ∧ (127 : Int) ≤ 127) := by decide
/-- Lane arithmetic wraps, and subtracts in the order of its operands (R143). -/
theorem test_lane_integers : addElem 2 0xFFFFFFFF 2 = (1, 0) ∧ subElem 2 1 3 = (0xFFFFFFFE, 0) ∧ maxElem 2 0xFFFFFFFF 1 = 1 := by decide
/-- BF16 rounds to nearest even: 1 + 2^-8 is 1 (R57). -/
theorem test_bf16_ties : (addElem 1 0x3F80 0x3B80).1 = 0x3F80 ∧ (addElem 1 0x3F81 0x3B80).1 = 0x3F82 := by decide +kernel
/-- The spec's narrowing example at R61: 0x3F806000 to BF16 under RNE and RTZ, and under SR with R = 4,660. -/
theorem test_narrow_example : (narrow 1 .rne true false (val32 0x3F806000)).1 = 0x3F80 ∧ (narrow 1 .rtz true false (val32 0x3F806000)).1 = 0x3F80 ∧
    (narrow 1 (.sr 0x1234) true false (val32 0x3F806000)).1 = 0x3F81 := by decide +kernel

/-- ScalarMemoryComplete and DescriptorsStart: 8 bytes of scalar memory, and a descriptor that lies there. -/
def desc0 : List Nat := [0, 0, 0, 0, 64, 0, 0, 0, 0, 0, 0, 0, 0, 0x10, 0, 0, 0, 0, 0, 0, 0, 0x20] ++ List.replicate 106 0
def smem : State := running fun d => (stalls (d.markStalls ⟨0, 5, 0, 0, 0, 0x1000⟩)).pokes (onchipAddr 0 5 0 0) desc0
theorem test_met_scalar_memory : smem.dev.fencedPlace 0 5 0 = false ∧ smem.dev.errs = [] ∧
    (∀ o ∈ List.range 128, o < spaceSize 5 ∧ (smem.dev.run.inRun = true → smem.dev.stallAllocated 0 5 0 o = true)) := by decide +kernel
theorem test_met_xstart : (smem.dev.aRead s0 0 + 64 * 0) % 2 ^ 64 = 0 ∧ 0 % 64 = 0 ∧ 0 + 128 ≤ spaceSize 5 ∧
    smem.dev.bytesAt 0 5 0 (List.range 128) = desc0 ∧ desc0.getD 0 0 = 0 ∧ (parseDesc desc0).inRange = true ∧ smem.dev.descFault 0 0 (parseDesc desc0) = none ∧
    (parseDesc desc0).cause ≠ 0 ∧ smem.dev.sched.occupied 0 < 1024 ∧ (smem.dev.x 0).ctxs.length < 16 ∧ (smem.dev.x 0).waiting = [] ∧
    (smem.dev.x 0).fixed.length < 8 := by decide +kernel
/-- A fixed-latency descriptor: on-chip to on-chip. -/
def desc1 : List Nat := [0, 0, 0, 0, 64, 0, 0, 0, 0, 0, 0, 0, 0, 0x20, 0, 0, 0, 1, 0, 0, 0, 0x20] ++ List.replicate 90 0 ++ [64, 0, 0, 0, 1] ++
  List.replicate 11 0
theorem test_met_xstart_fixed : (parseDesc desc1).cause = 0 ∧ (parseDesc desc1).inRange = true ∧ smem.dev.descFault 0 0 (parseDesc desc1) = none := by decide +kernel

/-- ScalarUnitsComplete: room in the scoreboard; a side entry and a walk that exist. -/
def walk0 : WalkRec := ⟨0, 0, 5, 128, 512, false, false⟩
theorem test_met_units : running.dev.sched.occupied 0 < 1024 ∧ running.dev.endFenced 0 (24 + 0) = false ∧
    ((0 : Byte).toNat < ((running fun d => { d with sched := { d.sched with image := some { img with walks := [walk0] } } }).dev.walks m0).length) ∧
    (1 ≤ (255 : Byte).toNat ∧ (255 : Byte).toNat ≤ (running fun d => d.setF fENG_MSIDE_COUNT [0, 0] 255).dev.getF fENG_MSIDE_COUNT [0, 0]) := by
  decide +kernel

/-! ### Runs -/

/-- HoldsComplete: an entry at the horizon, done and late; a report; freezes, releases, resumptions that are due. -/
def late0 : SbEntry := ⟨0, 7, 132, 1, false, none, false⟩
def board (e : List SbEntry) (h : Hold := {}) (f : Sched → Sched := id) : State :=
  running fun d => { d with sched := f { d.sched with board := e, hold := h } }
theorem test_met_holds : (∀ e ∈ (board [{ late0 with done := true }]).dev.horizonDue, e.done = true) ∧
    ((board [late0]).dev.horizonDue = [late0] ∧ late0.done = false ∧ (board [late0]).dev.sched.hold.freeze = none) ∧
    (board [] {} fun s => { s with reports := [7] }).dev.sched.reports = 7 :: [] ∧
    (board [] { freeze := some 100, isHold := true }).dev.freezeDue = true ∧
    (board [] { freeze := some 100, isHold := true, halt := true }).dev.freezeDue = true ∧
    (board [] { freeze := some 100, isHold := true, held := true }).dev.releaseDue = true ∧
    (board [] { freeze := some 100, isHold := true, held := true, releasing := some 0 }).dev.resumeDue = true := by decide +kernel
/-- An item late at its horizon freezes the part 24 sc on with its cause (R31, R33). -/
theorem test_late_item_freezes : (match exec .horizonCheck (board [late0]) with
    | .next t => (t.dev.sched.hold.freeze, t.dev.sched.hold.cause, t.dev.sched.hold.causeSet)
    | .fault _ => (none, 99, 99) | .refused _ => (none, 99, 99)) = (some 124, 1, 2) := by decide +kernel

/-- AnchorsComplete: one anchor, at sc 124 and 5 marks after the base, in each situation of the clauses. -/
def anchored (tc : Nat) (h : Hold) (f : Dev → Dev := id) : State :=
  running fun d => f { d with sched := { d.sched with image := some { img with anchors := [(124, 5)] }, tc := tc, hold := h } }
def at0 : Hold := { freeze := some 124, isHold := true, held := true, cause := 6, causeSet := 64 }
theorem test_met_anchor : (anchored 0 {}).dev.anchorFreezeDue = true ∧ (anchored 0 {}).dev.sched.curAnchor = some (124, 5) ∧
    ((anchored 40950 {}).dev.judgeDue = true ∧ (anchored 40950 {}).dev.sched.atAnchor = false) ∧
    (let s := anchored 40950 { at0 with judged := some true }
     s.dev.run.inRun = true ∧ s.dev.sched.stop = none ∧ s.dev.sched.atAnchor = true ∧ s.dev.sched.hold.halt = false ∧
      s.dev.sched.hold.met = false ∧ s.dev.sched.hold.slip = false ∧ s.dev.effectTime 124 ≤ s.dev.sched.target 5) ∧
    ((anchored 40950 { at0 with judged := some false }).dev.sched.hold.judged = some false ∧
      (anchored 40950 { at0 with judged := some false }).dev.sched.hold.held = true) ∧
    (let s := anchored 41000 { at0 with slip := true }
     s.dev.sched.hold.slip = true ∧ s.dev.sched.hold.slipMark = none ∧ s.dev.anchorFree 124 = true) ∧
    (anchored (6 * 8192) { at0 with slip := true, slipMark := some 6 }).dev.slipResumeDue = true ∧ (anchored 8192 {}).dev.markDue = true := by
  decide +kernel

/-- RunsEnd. -/
theorem test_met_run_end : running.dev.runDone = true ∧ running.dev.snapReq = none ∧
    (board [late0]).dev.runDone = false ∧ running.dev.run.inRun = true ∧ running.dev.sched.stop = none ∧
    (board [] {} fun s => { s with stop := some ⟨99, false⟩ }).dev.runFaultDue = true := by decide +kernel

/-! ### Rings and the network -/

def inj0 : InjExt := { interval := 1, laps := 1, fmt := 1, kb := 1, lb := 32, g := 1, region := 412, gen := 7, first := 100, flits := 2,
                       snoop := [1] }
def buf0 : InjBuf := ⟨0, { copy0 with kind := 2, inj := inj0 }, 7, [], 0⟩
def region0 : RegionRec := ⟨true, 0, 412, 7, 0, 256, 0x1000⟩
def ringing (f : Dev → Dev := id) : State := running fun d => f { d with inject := [buf0], tags := [(412, { cur := 7 })], sched := { d.sched with image := some { img with regions := [region0] } } }
def flit0 : RingFlit := { yard := 0, ccw := false, stop := 0, left := 80, inj := inj0, idx := 0, data := [], side := [], done := [] }
theorem test_met_ring : ringing.dev.injectionDue 0 false 0 = some buf0 ∧ ringing.dev.tagSlot 412 7 = some 0 ∧ ringing.dev.errs = [] ∧
    (∀ g ∈ (ringing fun d => { d with ring := [{ flit0 with left := 99 }] }).dev.ring,
      g.yard = 0 → g.ccw = false → g.slot = slotOf false 0 100 → g.out = none → g.gone ≤ 100) ∧
    (ringing fun d => { d with tags := [(412, { cur := 8 })] }).dev.tagSlot 412 7 = none ∧ ringing.dev.run.inRun = true ∧
    ringing.dev.sched.stop = none := by decide +kernel
theorem test_met_ring_delivery : let s := ringing fun d => { d with ring := [flit0] }
    s.dev.deliveryDue m0 false = some (flit0, 1) ∧ s.dev.cmdFenced 0 0 (s.dev.mPos m0) = false ∧ (s.dev.m m0).ringAt ≠ some s.dev.sched.sc ∧
    s.dev.isStopped (mNo m0) = false ∧
    ((flit0.entries s.dev m0 1).2.map (·.1)).Nodup ∧ (flit0.entries s.dev m0 1).2.length = 2 ∧
    (∀ g ∈ (flit0.entries s.dev m0 1).2,
      (Tab.get [] (s.dev.m m0).mangers (mangerKey (flit0.entries s.dev m0 1).1 g.1)).length + g.2.length ≤ 32) ∧
    (let u := ringing fun d => { (d.markFence 0 0 (d.mPos m0) true) with ring := [flit0] }
     u.dev.deliveryDue m0 false = some (flit0, 1) ∧ u.dev.cmdFenced 0 0 (u.dev.mPos m0) = true) := by decide +kernel

def netFlit0 : NetFlit :=
  { phase := 200, yard := 0, router := 9, port := 6, node := 0, dest := .mem (some 0) 0 0 64, src := (0, 16), data := [some 5, none], lanes := [] }
/-- A VC2 flit that rides a path, and an update command that has come to its unit. -/
def riding0 : NetFlit := { netFlit0 with cargo := some (.notice 0 9) }
def cmdFlit0 : DynFlit := { no := 3, vc := 1, src := (0, 24), dst := (0, 48), sent := 0, arrived := true, cargo := .command 0 0 { opc := 1, item := 7 } }
theorem test_met_flit : running.dev.net = [] ∧ running.dev.netFrozen = false ∧ dueFlit 100 false [] = none ∧
    dueFlit 100 false [netFlit0] = some (netFlit0, []) ∧ netFlit0.port < 8 ∧
    endpointAt netFlit0.router netFlit0.port = some (40, 0) ∧ endpointHolds netFlit0.yard 40 netFlit0.dest netFlit0.data.length = true ∧
    (running stalls).dev.checkAccess (onchipAddr 0 0 0 64) 2 = .good ∧
    dueFlit 100 false [riding0] = some (riding0, []) ∧ riding0.cargo = some (.notice 0 9) ∧
    running.dev.isStopped (routerUnit netFlit0.yard netFlit0.router) = false ∧ running.dev.dynDue = none ∧ (running fun d => { d with dyn := [cmdFlit0] }).dev.dynDue = some cmdFlit0 ∧
    (running fun d => { d with net := [{ netFlit0 with lanes := [(5, 190)] }] }).dev.onLane 5 = some 190 := by decide +kernel
/-- One reservation that takes the adder's output of router 5 in phase 204 of 256, and the node's record. -/
def timed : State := running fun d => { d with
  nodes := [(1280, { left := [(192, [])], right := [(192, [])] })]
  sched := { d.sched with image := some { img with
    timetables := [[0, 0, 128, 0, 1, 0, 0, 0, 0, 0, 0, 0, 0, 0, 0, 0] ++ leBytes 8 (5 + 8 * 2 ^ 10 + 204 * 2 ^ 14 + 2 ^ 40)]
    trees := [[1, 0, 5, 0] ++ List.replicate 28 0] } } }
theorem test_met_adder : timed.dev.adderNodes 0 5 200 = [0] ∧ Tab.find timed.dev.nodes 1280 = some { left := [(192, [])], right := [(192, [])] } ∧
    ({ left := [(192, [])], right := [(192, [])] } : AddNode).served ≠ 200 + 1 ∧ max 192 192 + 2 * timed.dev.latency 12 ≤ 200 ∧
    (timed.dev.treeNode 0 5 0).isSome = true ∧ timed.dev.isStopped (routerUnit 0 5) = false := by decide +kernel

/-! ### Memory and updates -/

/-- MemoryTiersComplete: the last row but one of a bank; a healthy unit; the thresholds of the refresh rate. -/
theorem test_met_memory : State.reset.dev.up = true ∧ State.reset.dev.flag fOCM_CTL_SCRUB_EN [0] = true ∧ 17 < spacePositions 1 ∧
    31 < spaceBanks 1 ∧ State.reset.dev.errs = [] ∧
    State.reset.dev.bankRead (bankKey 0 1 17 31) = false ∧ bankKey 0 1 17 31 ∉ State.reset.dev.scrub.now ∧
    (st fun d => { d with banks := { rows := [{ acc := 0, yard := 0, space := 1, pos := 17, eng := 0, bank := 31, write := false, port := 0, prio := 0, off := 0 }] } }).dev.bankRead
      (bankKey 0 1 17 31) = true ∧
    tierController 0x100000000000 = some 3 ∧ tierController 0 = some 0 ∧ State.reset.dev.flag fMEM_CTL_SCRUB_EN [0] = true ∧
    State.reset.dev.populated 0 1 = true ∧ State.reset.dev.flag fMEM_STAT_FAILED [19] = false ∧
    State.reset.dev.flag fMEM_CTL_CAL_FREEZE [19] = false := by decide +kernel
theorem test_refresh_doubles : (match exec (.memoryTemperatureRead 19 85) State.reset with
    | .next t => t.dev.flag fMEM_STAT_REFRESH2X [19] | .fault _ => false | .refused _ => false) = true ∧
    (match exec (.memoryTemperatureRead 19 84) State.reset with
    | .next t => t.dev.flag fMEM_STAT_REFRESH2X [19] | .fault _ => true | .refused _ => true) = false := by decide +kernel

/-- UpdatesAndValues: a command on its way, a unit with a head, a run that is done, a release that is ready. -/
def shard0 : ShardRec := ⟨0, 0, true, 9, 412, 64, 64, 0, 0, 0, 0, 0⟩
def plain0 : ShardRec := { shard0 with hasRegion := false }
def cmd0 : UpdCmd := { opc := 1, shard := 9, gen := 8, item := 7 }
def updating (sh : ShardRec) (x : UpdUnit) (g : RegionRec := region0) (f : Dev → Dev := id) : State :=
  running fun d => f { d with upd := [(0, x)], tags := [(412, { cur := 7 })], sched := { d.sched with image := some { img with regions := [g], shards := [sh] } } }
theorem test_met_update_arrival (c : UpdCmd) (hc : c = cmd0 ∨ c = { cmd0 with opc := 4 } ∨ c = { cmd0 with opc := 3 }) :
    (running fun d => { d with updSent := [(0, 0, c)] }).dev.updSent.find? (fun m => m.1 = 0 && m.2.1 = sKey s0) = some (0, 0, c) := by
  rcases hc with rfl | rfl | rfl <;> decide +kernel
theorem test_met_update_start :
    (((updating plain0 { queue := [cmd0] }).dev.unit 0).running = none ∧ ((updating plain0 { queue := [cmd0] }).dev.unit 0).queue = cmd0 :: [] ∧
      (updating plain0 { queue := [cmd0] }).dev.isStopped (updUnit 0) = false ∧ (updating plain0 { queue := [cmd0] }).dev.shard 9 = some plain0 ∧
      (updating plain0 { queue := [cmd0] }).dev.updOut 0 cmd0 plain0 = none ∧ cmd0.listOut 0 = none ∧ badIndex (64 / max 1 64) 0 none [] = none) ∧
    ((updating shard0 { queue := [cmd0] }).dev.shard 9 = some shard0 ∧ (updating shard0 { queue := [cmd0] }).dev.region 412 = some region0 ∧
      (region0.stashed = true ∧ shard0.hasRegion = true) ∧ newer 8 ((updating shard0 { queue := [cmd0] }).dev.tag 412).cur = true ∧
      ((updating shard0 { queue := [cmd0] }).dev.tag 412).pendingValid = false ∧
      ((updating shard0 { queue := [cmd0] }).dev.tag 412).stashValid = false) ∧ newer 7 7 = false := by decide +kernel
theorem test_met_update_end :
    (let s := updating shard0 { running := some { cmd := cmd0, coef := [], rows := [], done := 64 } }
     (s.dev.unit 0).running = some { cmd := cmd0, coef := [], rows := [], done := 64 } ∧ s.dev.shard cmd0.shard = some shard0 ∧
      64 ≥ cmd0.total shard0) ∧
    (let s := updating shard0 { releases := [{ cmd0 with region := 412 }] }
     (s.dev.unit 0).releases[0]? = some { cmd0 with region := 412 } ∧ s.dev.releaseReady { cmd0 with region := 412 } = true) := by
  decide +kernel
/-- The spec's example of tags: 0x8000 is newer than 0x7FFF (R135), and 32,768 apart neither is. -/
theorem test_newer : newer 0x8000 0x7FFF = true ∧ newer 0x7FFF 0x8000 = false ∧ newer 0x8000 0 = false ∧ newer 0 0x8000 = false := by decide
theorem test_met_values : (1 : BitVec 16) ≠ 2 ∧ (1 : BitVec 16) - 2 ≠ 0x8000 ∧ 0xBF800000 < 2 ^ 32 ∧ 0x3F800000 < 2 ^ 31 ∧
    (val32 0x3F800000).isNan = false ∧ (val32 0xBF800000).isNan = false ∧ (val32 0x7FC00000).isNan = true := by decide

/-! ### Clocks and power -/

theorem test_met_stretch :
    (let s := running fun d => { d with clocks := { d.clocks with lastAt := [(3, 69)] } }
     s.dev.up = true ∧ s.dev.sched.hold.held = false ∧ s.dev.justStretched 3 = true ∧ s.dev.justStretched 4 = false ∧
      (∀ q < 16, s.dev.skew q ≤ 12)) ∧
    (let s := running fun d => { d with sched := { d.sched with sc := 1024 }, clocks := { d.clocks with inSc := true } }
     s.dev.clocks.inSc = s.dev.inSc ∧ s.dev.justStretched 15 = false ∧ s.dev.windowDue = true) ∧
    (running fun d => { (d.setF fCLK_PL_MEASURED [] 3001) with
      sched := { d.sched with sc := 64 }, clocks := { d.clocks with inSc := true } }).dev.powerStretchDue = true := by decide +kernel
theorem test_met_rails : (st fun d => { d with clocks := { d.clocks with lowerAt := some 0 } }).dev.lowerDue = true ∧
    (st fun d => { d with sched := { d.sched with ref := 7200000 } }).dev.voltageDue = true ∧
    (∃ x, (st fun d => { d with clocks := { d.clocks with change := some ⟨0, 40000, true, false, false, []⟩ } }).dev.clocks.change = some x ∧
      x.faster = true) := by
  refine ⟨by decide +kernel, by decide +kernel, ⟨0, 40000, true, false, false, []⟩, rfl, rfl⟩
theorem test_met_power : acceptsB State.reset.dev 0x21 hA = true ∧ 500 ≤ (500 : BitVec 16).toNat ∧ (3000 : BitVec 16).toNat ≤ 3000 ∧
    (499 : BitVec 16).toNat < 500 ∧ (3001 : BitVec 16).toNat > 3000 ∧ acceptsB State.reset.dev 0x21 hS = true := by decide +kernel
theorem test_met_power_loop :
    State.reset.dev.up = true ∧
    (st fun d => { (d.setF fCLK_PL_MEASURED [] 3001) with
      clocks := { d.clocks with powerSince := some 0 }, sched := { d.sched with ref := 7200000 } }).dev.stepDownDue = true ∧
    (st fun d => { ((d.setF fCLK_OP_LOOP [] 4).setF fCLK_OP_REQ [] 0) with
      clocks := { d.clocks with lowSince := some 0 }, sched := { d.sched with ref := 720000000 } }).dev.stepUpDue = true := by decide +kernel
theorem test_met_thermal :
    ((st fun d => d.setF fCLK_THERM_TJ_MAX [] 101).dev.thermalDue = true ∧ (st fun d => d.setF fCLK_THERM_TJ_MAX [] 101).dev.hot = true) ∧
    ((st fun d => (d.setF fCLK_THERM_TJ_MAX [] 90).setF fCLK_THERM_THROTTLING [] 1).dev.thermalDue = true ∧
      (st fun d => (d.setF fCLK_THERM_TJ_MAX [] 90).setF fCLK_THERM_THROTTLING [] 1).dev.hot = false) ∧
    (st fun d => d.setF fCLK_THERM_TJ_MAX [] 110).dev.tripDue = true := by decide +kernel

/-- ClocksChange: from OP1 to OP0 at time count T, its rails, a rail that does not confirm, the freeze and the switch. -/
def changing (tc : Nat) (x : OpChange) (r : PartState := .ready) (f : Dev → Dev := id) : State :=
  owned r fun d => f { d with clocks := { d.clocks with change := some x }, sched := { d.sched with tc := tc, begun := true } }
def up0 : OpChange := ⟨0, 6000000, true, false, false, []⟩
theorem test_met_op_change : acceptsB (owned .ready).dev 0x20 hA = true ∧ (owned .ready).dev.seen.clocks.change = none ∧
    (owned .ready).dev.seen.sched.tc + 32000 ≤ (32000 : Word).toNat ∧ (31999 : Word).toNat < (owned .ready).dev.seen.sched.tc + 32000 ∧
    (changing 0 up0).dev.seen.clocks.change.isSome = true ∧ (changing 5968000 up0).dev.railWriteDue = true ∧
    (changing 5999200 { up0 with written := true, unconfirmed := [3] }).dev.confirmDue = true ∧
    ((changing 5999968 { up0 with written := true } .running).dev.relockFreezeDue = true ∧
      (changing 5999968 { up0 with written := true } .running).dev.sched.hold.freeze = none) ∧
    ((changing 6000000 { up0 with written := true }).dev.switchDue = true ∧ up0.target ≤ 4) ∧
    (st fun d => { d with clocks := { d.clocks with settleAt := some 0 } }).dev.settleDue = true := by decide +kernel
theorem test_met_pll : State.reset.dev.up = true ∧ State.reset.dev.flag fCLK_PLL_LOCKED [3] = true ∧
    (st fun d => d.setF fCLK_PLL_LOCKED [3] 0).dev.flag fCLK_PLL_LOCKED [3] = false ∧
    Tab.find (st fun d => { d with clocks := { d.clocks with relock := [(3, 3, 0)] } }).dev.clocks.relock 3 = some (3, 0) ∧
    Tab.find (st fun d => { d with clocks := { d.clocks with relock := [(3, 2, 0)] } }).dev.clocks.relock 3 = some (2, 0) ∧
    0 ≤ State.reset.dev.sched.ref ∧ running.dev.run.inRun = true ∧ running.dev.sched.hold.freeze = none := by decide +kernel

/-! ### The fabric -/

def portUp (f : Dev → Dev := id) : State := owned .loaded fun d => f (d.setF fFAB_PORT_STAT_STATE [23] 2)
theorem test_met_train : acceptsB (owned .ready).dev 0x70 hA = true ∧ (0x800000 : BitVec 32) ≠ 0 ∧ (0x800000 : BitVec 32).toNat < 2 ^ 24 ∧
    (owned .ready).dev.run ≠ .running ∧ (owned .ready).dev.run ≠ .held ∧ State.reset.dev.getF fFAB_PORT_STAT_STATE [23] = 1 ∧
    portUp.dev.getF fFAB_PORT_STAT_STATE [23] = 2 ∧ State.reset.dev.trained 1 = false ∧ portUp.dev.trained 0x800000 = true ∧
    ((st fun d => d.setF fFAB_PORT_STAT_STATE [0] 0).dev.getF fFAB_PORT_STAT_STATE [0] = 0) := by decide +kernel

def write0 : FabPacket := { lane := 0, header := [1, 0, 0, 0, 5, 0, 1, 0] ++ leBytes 8 0 ++ leBytes 8 0x100000000000 ++ leBytes 8 0,
                            payload := [9, 8, 7] }
def member (f : Dev → Dev := id) : State :=
  portUp fun d => f { d with sched := { d.sched with image := some { img with multi := true } } }
def frame0 (n k : Nat) : FabFrame := { seq := 4095, lane := 0, parts := [], bytes := [], replays := n, fails := k }
theorem test_met_packets : portUp.dev.up = true ∧ portUp.dev.linkUp 23 = true ∧ (0 : BitVec 12).toNat = (portUp.dev.fport 23).rxSeq ∧
    ((portUp fun d => d.setFport 23 { replay := [frame0 1 30] }).dev.fport 23).replay.dropWhile (fun f => f.seq ≠ (4095 : BitVec 12).toNat) =
      frame0 1 30 :: [] ∧ (frame0 0 31).replays = 0 ∧ (frame0 1 30).fails < 31 ∧ ((frame0 1 31).replays ≠ 0 ∧ (frame0 1 31).fails ≥ 31) ∧
    namesQueue (write0.addr % 2 ^ 48) = false ∧ (landingEnd (write0.addr % 2 ^ 48)).isSome = true ∧ member.dev.errs = [] ∧
    (member fun d => { d with fab := { d.fab with arrived := [write0] } }).dev.arrivedPacket 1 0 = some write0 ∧
    member.dev.refusesPacket write0 = false ∧ member.dev.checkAccess (write0.addr % 2 ^ 48) 3 = .good ∧
    portUp.dev.refusesPacket write0 = true ∧
    (let k : FabPkt := ⟨0, BitVec.ofNat 256 (1 + 1 * 2 ^ 48), []⟩
     (packetOf k).dst = member.dev.devId ∧ (packetOf k).type = 1 ∧ nth 0 (packetOf k).header 7 < 64) := by decide +kernel
/-- The bytes of a WRITE land, and the packet is gone (R277). -/
theorem test_write_lands : (match exec (.write 0) (member fun d => { d with fab := { d.fab with arrived := [write0] } }) with
    | .next t => ((List.range 4).map fun i => t.dev.peek (0x100000000000 + i), t.dev.fab.arrived)
    | .fault _ => ([], []) | .refused _ => ([], [])) = ([9, 8, 7, 0], []) := by decide +kernel

/-- A fabric node 3 with one device input, device 5, and none above it. -/
def rec0 : List Nat := [2, 0, 5, 0, 0, 0, 1, 0, 3, 0, 0xFF, 0xFF, 0, 0, 0, 0, 5, 0] ++ List.replicate 14 0
def noded (f : Dev → Dev := id) : State := member fun d => f { d with
  sched := { d.sched with image := some { img with multi := true, trees := [rec0, [3, 0] ++ List.replicate 30 0] } } }
def unit0 (down : Nat) : FabPacket := { lane := 2, header := [2, down, 0, 0, 5, 0, 1, 0] ++ leBytes 4 0 ++ leBytes 4 3 ++ leBytes 16 0,
                                         payload := List.replicate 256 0 }
theorem test_met_fabric_node : (noded fun d => { d with fab := { d.fab with arrived := [unit0 0] } }).dev.arrivedPacket 2 0 = some (unit0 0) ∧
    noded.dev.refusesPacket (unit0 0) = false ∧ noded.dev.fabRecords (unit0 0).flow = some (rec0, [3, 0] ++ List.replicate 30 0) ∧
    bit (unit0 0).flags 0 = false ∧ bit (unit0 1).flags 0 = true ∧ 0 < field rec0 6 1 ∧
    256 * (Tab.get [] (noded.dev.fabNode 3).inputs 0).length + (unit0 0).payload.length ≤ 65536 ∧
    (unit0 1).payload.length ≤ 256 * noded.dev.resultRoom rec0 ([3, 0] ++ List.replicate 30 0) ∧
    (field rec0 10 2 = 0xFFFF ∧ noded.dev.resultRoom rec0 ([3, 0] ++ List.replicate 30 0) ≠ 0) ∧
    Tab.get 0 noded.dev.fab.adders (48 * field rec0 1 1 + field rec0 2 1) = 0 ∧
    (List.range (field rec0 6 1)).find? (fun i => !bit (inputOf rec0 i) 15 && inputOf rec0 i % 1024 = (unit0 0).src) = some 0 ∧
    (∀ i < field rec0 6 1, ((noded fun d => { d with fab := { d.fab with nodes := [(3, { inputs := [(0, [[]])] })] } }).dev.inputUnit 3 rec0 i).isSome = true) := by
  decide +kernel

/-- MembershipAndTimeComplete. -/
def reset0 : FabPacket := { write0 with header := [4, 0, 0, 0, 5, 0, 1, 0] ++ leBytes 24 0 }
theorem test_met_membership : acceptsB (owned .ready).dev 0x24 hA = true ∧ (1023 : BitVec 16).toNat ≤ 1023 ∧ (0xFFFF : BitVec 16) = 0xFFFF ∧
    (running.dev.seen.run.inRun = true ∧ acceptsB running.dev 0x24 hA = true) ∧ (0 : BitVec 32).toNat = (owned .ready).dev.seen.epoch ∧
    (owned .ready fun d => { d with fab := { d.fab with lastReset := some 0 } }).dev.resetQuiet = true ∧
    ((member fun d => { d with fab := { d.fab with arrived := [reset0] } }).dev.fab.arrived.find? (fun k => k.type = 4) = some reset0 ∧
      reset0.epoch = member.dev.epoch ∧ member.dev.resetQuiet = false) ∧
    (member fun d => { d with fab := { d.fab with resetting := true } }).dev.fab.resetting = true := by decide +kernel
def following (f : Dev → Dev := id) : State := portUp fun d =>
  let d1 := ((d.setF fFAB_ID_EPOCH [] 1).setF fFAB_TIME_STAT_UPPORT [] 23 |>.setF fFAB_TIME_STAT_STATE [] 1).setFport 23
    { timeOut := some 5, timeIn := some 9 }
  f { d1 with fab := { d1.fab with source := some 5 } }
theorem test_met_time : (following.dev.up = true ∧ following.dev.linkUp 23 = true ∧ following.dev.follows = true ∧
      following.dev.getF fFAB_TIME_STAT_UPPORT [] = 23 ∧ (following.dev.fport 23).timeOut = some 5 ∧
      (following.dev.fport 23).timeIn = some 9) ∧ portUp.dev.follows = false ∧ (portUp.dev.fport 23).timeOut = none ∧
    (following fun d => d.setF fFAB_TIME_STAT_UPPORT [] 31).dev.getF fFAB_TIME_STAT_UPPORT [] ≠ 23 ∧
    (following fun d => { d with sched := { d.sched with ref := 21600000 } }).dev.holdoverDue = true := by
  decide +kernel

/-- MemoryStaysCanonical: memory after reset, and after a write that puts a listed byte back to 0. -/
theorem test_met_memory_form : Memory.wf State.reset.dev.mem = true ∧ Memory.wf (State.reset.dev.pokes 0x100000000000 [1, 0, 3]).mem = true ∧
    ((State.reset.dev.poke 0x100000000000 1).poke 0x100000000000 0).mem = [] ∧ Memory.wf [(5, 0#8)] = false ∧
    Memory.wf [(5, 1#8), (5, 1#8)] = false := by decide +kernel

end Sys2Proof.Tests
end

section
/-! Conversions and reductions (R55 to R61, R148, R152, R153). Counting the issue of a vector instruction (R158) leaves everything
the instruction reads as it was, the latencies included, and both instructions end by queueing one list of results. -/
namespace Sys2Proof.Machine

variable (d : Dev)

/-! ### Registers that a performance counter leaves alone -/

theorem Tab.find_put_other {α : Type} [DecidableEq α] (x : α) (t : List (Nat × α)) {k j : Nat} (v : α) (h : j ≠ k) :
    Tab.find (Tab.put x t k v) j = Tab.find t j := by
  unfold Tab.put
  split
  · exact Tab.find_erase_other _ h
  · exact Tab.find_insert_other _ _ h

theorem Dev.setWord_word_other {r r' : RegName} {i i' : List Nat} (w : Word) (h : regOffset r' i' ≠ regOffset r i) :
    (d.setWord r i w).word r' i' = d.word r' i' := by
  simp only [Dev.word, Tab.get, Dev.setWord_regs, Tab.find_put_other _ _ _ h]

theorem Dev.noteWrap_word_other (r : RegName) (i : List Nat) {r' : RegName} {i' : List Nat}
    (h : regOffset r' i' ≠ regOffset .rREC_OVF_ADDR []) : (d.noteWrap r i).word r' i' = d.word r' i' := by
  unfold Dev.noteWrap
  split
  · exact d.setWord_word_other _ h
  · rfl

section
variable {r' : RegName} {i' : List Nat} (ho : regOffset r' i' ≠ regOffset .rREC_OVF_ADDR [])
  (hl : regOffset r' i' ≠ regOffset .rREC_LOST_CNT [])
include ho hl

theorem Dev.loseTrigger_word_other : d.loseTrigger.word r' i' = d.word r' i' := by
  have hb : (d.bump .rREC_LOST_CNT [] 1).1.word r' i' = d.word r' i' := d.setWord_word_other _ hl
  unfold Dev.loseTrigger
  simp only []
  split
  · exact (Dev.noteWrap_word_other _ _ _ ho).trans hb
  · exact hb

theorem Dev.fire_word_other (source unit : Nat) : (d.fire source unit).word r' i' = d.word r' i' := by
  unfold Dev.fire
  split
  · rfl
  · split
    · exact d.loseTrigger_word_other ho hl
    · rfl

/-- A counter writes its own register and, as it wraps, the two of the recorder (R372, R373). -/
theorem Dev.count_word_other {r : RegName} {i : List Nat} (n : Nat) (h : regOffset r' i' ≠ regOffset r i) :
    (d.count r i n).word r' i' = d.word r' i' := by
  have hb : (d.bump r i n).1.word r' i' = d.word r' i' := d.setWord_word_other _ h
  unfold Dev.count
  simp only []
  split
  · exact (Dev.fire_word_other _ ho hl _ _).trans ((Dev.noteWrap_word_other _ _ _ ho).trans hb)
  · exact hb

end

/-- The pads of the classes of Table 2-5 lie below every register of the recorder and of the engines. -/
theorem regOffset_pad_lt {cls : Nat} (h : cls < 16) : regOffset .rSCH_PAD [cls / 8] < 0x9000000 := by
  simp only [regOffset, RegName.dims, RegName.base, List.zipWith, List.foldl]
  omega

theorem regOffset_vissue_ge (e : VEng) : 0x9000000 ≤ regOffset .rENG_VISSUE [e.yard.val, e.idx.val] := by
  simp only [regOffset, RegName.dims, RegName.base, List.zipWith, List.foldl]
  omega

/-- What a vector instruction completes with follows from what its own work makes of the device once its issue is counted (R158):
of what it reads only the registers are new, and the latency of its class is the same. -/
theorem completes_of_vUpd {i : Instr} {e : VEng} {work : Dev → Dev} {s : State} {P : Dev → Prop} (he : exec i s = s.vUpd e work)
    (hw : ∀ g q, (∀ cls < 16, Dev.latency { s.dev with regs := g, recorder := q } cls = s.dev.latency cls) →
      P (work { s.dev with regs := g, recorder := q })) : Completes i s P := by
  obtain ⟨g, q, h⟩ := s.dev.count_changes .rENG_VISSUE [e.yard.val, e.idx.val] 1
  refine ⟨work (s.dev.count .rENG_VISSUE [e.yard.val, e.idx.val] 1), he, ?_⟩
  rw [h]
  refine hw g q fun cls hc => ?_
  have hp := regOffset_pad_lt hc
  have hover : regOffset .rSCH_PAD [cls / 8] ≠ regOffset .rREC_OVF_ADDR [] := Nat.ne_of_lt (Nat.lt_of_lt_of_le hp (by decide))
  have hlost : regOffset .rSCH_PAD [cls / 8] ≠ regOffset .rREC_LOST_CNT [] := Nat.ne_of_lt (Nat.lt_of_lt_of_le hp (by decide))
  have hpad := s.dev.count_word_other hover hlost 1 (Nat.ne_of_lt (Nat.lt_of_lt_of_le hp (regOffset_vissue_ge e)))
  rw [h] at hpad
  simp only [Dev.latency, hpad]

/-! ### Queueing results -/

/-- Queue several results for one cycle, in their order (R26). -/
def Dev.deliverAll (lat : Nat) (ts : List Target) : Dev := ts.foldl (fun d t => d.deliver lat t) d

/-- The results `ts` are queued from `d` to `d'`, and nothing else of memory and engines changes. -/
def Dev.OnlyQueues (d d' : Dev) (lat : Nat) (ts : List Target) : Prop := d.Queued d' lat ts ∧ SameEngines d' d

theorem Dev.onlyQueues_deliverAll (lat : Nat) (ts : List Target) : d.OnlyQueues (d.deliverAll lat ts) lat ts := by
  induction ts generalizing d with
  | nil => exact ⟨by simp [Dev.Queued, Dev.deliverAll], rfl, rfl, rfl, rfl⟩
  | cons t ts ih =>
    obtain ⟨hq, he⟩ := ih (d.deliver lat t)
    refine ⟨?_, he⟩
    simpa [Dev.Queued, Dev.deliverAll, Dev.deliver, Dev.withSched, Nat.add_assoc, Nat.add_comm 1] using hq

/-- The results `ts`, and after them the flags that they raise (R145). -/
theorem Dev.onlyQueues_vFlags (e : VEng) (lat flags : Nat) (ts : List Target) :
    d.OnlyQueues ((d.deliverAll lat ts).vFlags e lat flags) lat (ts ++ if flags = 0 then [] else [.vstat e flags]) := by
  have h : (d.deliverAll lat ts).vFlags e lat flags =
      d.deliverAll lat (ts ++ if flags = 0 then [] else [.vstat e flags]) := by
    unfold Dev.vFlags Dev.deliverAll
    rw [List.foldl_append]
    split <;> rfl
  rw [h]
  exact d.onlyQueues_deliverAll _ _

theorem Dev.onlyQueues_vDeliver (e : VEng) (vd ty lat mask : Nat) (rs : List (Nat × Nat)) :
    d.OnlyQueues (d.vDeliver e vd ty lat mask rs) lat (vTargets e vd ty mask rs) := d.onlyQueues_vFlags e lat _ [_]

theorem Dev.OnlyQueues.count {d d' : Dev} {lat : Nat} {ts : List Target} (h : d.OnlyQueues d' lat ts) (r : RegName)
    (i : List Nat) (n : Nat) : d.OnlyQueues (d'.count r i n) lat ts := by
  obtain ⟨g, q, hc⟩ := d'.count_changes r i n
  rw [hc]
  exact h

theorem exec_vcvt (e : VEng) (f : VcvtF) (s : State) : exec (.vcvt e f) s = execVcvt e f s := rfl
theorem exec_vred (e : VEng) (f : VredF) (s : State) : exec (.vred e f) s = execVred e f s := rfl

end Sys2Proof.Machine
end

section
open Sys2Proof Sys2Proof.Machine

/-- Settles O39: what either instruction queues is computed from the device once its issue is counted, which has the mask, the
sources, the rounding and the latency that it had before. -/
theorem convertAndReduceComplete : Obligations.ConvertAndReduceComplete := by
  constructor
  · intro e f s
    refine completes_of_vUpd (exec_vcvt e f s) fun g q hl => ?_
    rw [← hl clsAlu (by decide)]
    simp only []
    split
    · exact Dev.onlyQueues_vDeliver _ e _ _ _ _ _
    · exact Dev.onlyQueues_vDeliver _ e _ _ _ _ _
  · intro e f s ty kind w m a tops count rs flags
    refine completes_of_vUpd (exec_vred e f s) fun g q hl => ?_
    have hempty : (List.range (tyCount ty / w)).map (fun j => some (nth none tops j).isNone) =
        ((List.range (tyCount ty / w)).map fun j => (nth none tops j).isNone).map some := List.map_map.symm
    rw [← hl clsRed (by decide), hempty]
    have h := Dev.onlyQueues_vFlags { s.dev with regs := g, recorder := q } e
      (Dev.latency { s.dev with regs := g, recorder := q } clsRed) flags
      [.vreg e f.vd.toNat false f.dbase.toNat (rs.map fun r => some r.1), .vmask e f.emask.toNat f.dbase.toNat
        (((List.range (tyCount ty / w)).map fun j => (nth none tops j).isNone).map some)]
    simp only []
    split
    · exact h.count _ _ _
    · exact h
end

section
/-! Steps of the array (R63, R64, R73, R75, R76): what a step reads and writes of an engine's state, and the value of each cell. -/
namespace Sys2Proof.Machine

variable (d : Dev)

@[simp] theorem Dev.setM_m_same (e : MEng) (m : MState) : (d.setM e m).m e = m := Tab.get_put_same _ _ _ _

theorem Dev.unitEcc_none (n y k p stop unit : Nat) : d.unitEcc .none n y k p stop unit = d := rfl

theorem Dev.setF_if_mEng (b : Bool) (f : Field) (i : List Nat) (v : Nat) :
    (if b = true then d.setF f i v else d).mEng = d.mEng := by
  cases b <;> rfl

/-- The three sticky flags are fields of a register (R76). -/
theorem Dev.mFlags_mEng (e : MEng) (f : Flags) : (d.mFlags e f).mEng = d.mEng := by
  unfold Dev.mFlags
  simp only [Dev.setF_if_mEng]

/-- Raising flags leaves the engine's state as it has been written. -/
theorem Dev.mFlags_setM_m (e : MEng) (m : MState) (f : Flags) : ((d.setM e m).mFlags e f).m e = m := by
  rw [Dev.m, Dev.mFlags_mEng]
  exact d.setM_m_same e m

theorem foldl_min_ne_zero {l : List Nat} {a : Nat} (ha : a ≠ 0) (hl : ∀ x ∈ l, x ≠ 0) : l.foldl min a ≠ 0 := by
  induction l generalizing a with
  | nil => exact ha
  | cons x l ih =>
    have hx := hl x (by simp)
    exact ih (a := min a x) (by omega) fun y hy => hl y (by simp [hy])

theorem exec_arrayStep (e : MEng) (ecc : Ecc) (s : State) : exec (.arrayStep e ecc) s = execArrayStep e ecc s := rfl

/-- A cell adds its exact products to its accumulator and rounds once (R64). -/
theorem cellStep_value (acc : Nat) (rs cs : List Val) :
    (cellStep acc rs cs).1 = ((List.zipWith Val.mul rs cs).foldl Val.add (val32 acc)).toFp32 := rfl

/-- A step of the accumulator is a step of every one of its cells, from the lanes that cross there (R64). -/
theorem AccState.step_vals (a : AccState) (code sc : Nat) (rv cv : List (List Val)) {n : Nat}
    (hn : n < (shapeOf code).paddocks * (shapeOf code).rows * (shapeOf code).cols) :
    (a.step code sc rv cv).1.vals[n]? = some (cellStep (nth 0 a.vals n)
      (nth [] rv (((shapeOf code).place n).1 * (shapeOf code).rows + ((shapeOf code).place n).2.1))
      (nth [] cv (((shapeOf code).place n).1 * (shapeOf code).cols + ((shapeOf code).place n).2.2))).1 := by
  simp [AccState.step, List.getElem?_range hn]

end Sys2Proof.Machine
end

section
open Sys2Proof Sys2Proof.Machine

/-- Settles O32: with every manger filled, a whole K-step a step and no gap broken, the step has one way to go, and it leaves the
accumulator named by the MMA as `AccState.step` makes it; that steps cell by cell. -/
theorem stepValues : Obligations.StepValues := by
  constructor
  · intro e s i r hdue hrate hgap hfull
    have hlow : ((shapeOf (s.dev.shapeCode e)).mangers.map fun k => (Tab.get [] (s.dev.m e).mangers k).length).foldl min 32 ≠ 0 :=
      foldl_min_ne_zero (by decide) (by simpa using hfull)
    have hwide : ¬ r.rate < 4 := by omega
    have hspoilt : (decide (r.taken = 0) && !(s.dev.m e).gapKept r (s.dev.shapeCode e) s.dev.sched.sc) = false := by
      by_cases h : r.taken = 0 <;> simp [h, hgap]
    refine ⟨_, exec_arrayStep e .none s, ?_⟩
    simp only [Dev.unitEcc_none, hdue, hlow, hwide, hspoilt, if_false, decide_false, Bool.false_and, Bool.false_eq_true]
    rw [Dev.mFlags_setM_m]
    cases r.f.acc <;> simp
  · intro a code sc rv cv n hn
    rw [a.step_vals code sc rv cv hn, cellStep_value]
end

section
/-! The lunge rings (R100, R103, R104, R107, R110 to R112): a flit that finds its slot free, the fault of a version that is not there,
what a delivery adds to an engine's mangers, and what a removal leaves on the rings. -/
namespace Sys2Proof.Machine

variable (d : Dev)

theorem exec_ringInjection (y : Fin 4) (ccw : Bool) (t : Fin 3) (ecc : Ecc) (s : State) :
    exec (.ringInjection y ccw t ecc) s = execRingInjection y ccw t ecc s := rfl
theorem exec_ringDelivery (e : MEng) (ccw : Bool) (ecc : Ecc) (s : State) :
    exec (.ringDelivery e ccw ecc) s = execRingDelivery e ccw ecc s := rfl
theorem exec_flitRemoval (y : Fin 4) (ccw : Bool) (slot : Fin 84) (s : State) :
    exec (.flitRemoval y ccw slot) s = execFlitRemoval y ccw slot s := rfl

/-! ### Injection -/

theorem Dev.isStopped_of_injectionDue {y : Nat} {ccw : Bool} {t : Nat} {b : InjBuf} (h : d.injectionDue y ccw t = some b) :
    d.isStopped (injUnit y ccw t) = false := by
  have hb := List.find?_some h
  simp only [Bool.and_eq_true, Bool.not_eq_true'] at hb
  obtain ⟨⟨⟨⟨⟨hworks, -⟩, -⟩, -⟩, -⟩, -⟩ := hb
  exact hworks

/-- The open descriptors once the next flit of one of them has left its stop (R106). -/
def Dev.flitTaken (d : Dev) (b : InjBuf) : Dev :=
  { d with inject := if b.next + 1 ≥ b.desc.inj.flits then d.inject.erase b
      else d.inject.map fun c => if c = b then { c with next := c.next + 1 } else c }

/-- The flit that leaves an injection stop, with the bytes of its version (R107, R111). -/
def Dev.flitLeaving (d : Dev) (y : Nat) (ccw : Bool) (t : Nat) (b : InjBuf) (slot : Nat) : RingFlit :=
  let bs := ((d.flitTaken b).flitBytes b slot).1
  { yard := y, ccw := ccw, stop := t, left := d.sched.sc, inj := b.desc.inj, idx := b.next,
    data := bs.take b.desc.len, side := bs.drop b.desc.len, done := [] }

section
variable {s : State} {y : Fin 4} {ccw : Bool} {t : Fin 3} {b : InjBuf} (hdue : s.dev.injectionDue y.val ccw t.val = some b)
include hdue

theorem runs_ringInjection_of_tagSlot_some {slot : Nat} (hslot : s.dev.tagSlot b.desc.inj.region b.desc.inj.gen = some slot) :
    let f := s.dev.flitLeaving y.val ccw t.val b slot
    Runs (.ringInjection y ccw t .none) s
      (((((s.dev.flitTaken b).flitBytes b slot).2.putFlit f).count (if ccw then .rRING_FLITS_CCW else .rRING_FLITS_CW)
        [y.val] 1).busyUntil f.gone) := by
  have hworks := s.dev.isStopped_of_injectionDue hdue
  simp only [Runs, exec_ringInjection, execRingInjection, State.upd, Dev.unitEcc_none, hdue, hworks, hslot, Bool.false_eq_true,
    if_false]
  rfl

theorem runs_ringInjection_of_tagSlot_none (hslot : s.dev.tagSlot b.desc.inj.region b.desc.inj.gen = none) :
    Runs (.ringInjection y ccw t .none) s ((s.dev.flitTaken b).ringFault b) := by
  have hworks := s.dev.isStopped_of_injectionDue hdue
  simp only [Runs, exec_ringInjection, execRingInjection, State.upd, Dev.unitEcc_none, hdue, hworks, hslot, Bool.false_eq_true,
    if_false]
  rfl

end

/-- Where no word of memory holds an error, a read spends free values only (R26). -/
theorem Dev.readAt_clean (l : List Nat) (h : d.errs = []) : ∃ n, (d.readAt l).2 = { d with nonce := n } := by
  unfold Dev.readAt
  simp only [d.meet_clean l h]
  split <;> exact ⟨_, rfl⟩

theorem Dev.flitBytes_clean (b : InjBuf) (slot : Nat) (h : d.errs = []) :
    ∃ n, (d.flitBytes b slot).2 = { d with nonce := n } := by
  unfold Dev.flitBytes
  simp only []
  split
  · exact ⟨_, rfl⟩
  · exact d.readAt_clean _ h

/-- A flit whose slot holds none that is still due there joins the ring (R100). -/
theorem Dev.putFlit_free {f : RingFlit} (h : ∀ g ∈ d.ring, g.yard = f.yard → g.ccw = f.ccw → g.slot = f.slot → g.out = none →
    g.gone ≤ f.left) : d.putFlit f = { d with ring := d.ring ++ [f] } := by
  have hclash : ¬ d.ring.any (fun g => g.yard = f.yard && g.ccw == f.ccw && g.slot = f.slot && g.out.isNone && f.left < g.gone) := by
    simp only [List.any_eq_true, Bool.and_eq_true, decide_eq_true_eq, beq_iff_eq, Option.isNone_iff_eq_none]
    rintro ⟨g, hg, ⟨⟨⟨hy, hc⟩, hs⟩, ho⟩, hl⟩
    exact Nat.not_lt.2 (h g hg hy hc hs ho) hl
  unfold Dev.putFlit
  exact if_neg hclash

/-! ### A version that is not there -/

@[simp] theorem Dev.setWord_word_same (r : RegName) (i : List Nat) (w : Word) : (d.setWord r i w).word r i = w :=
  Tab.get_put_same _ _ _ _

/-- REC_FAULT shows the code of the fault it was written for (Table 18-9). -/
theorem FaultInfo.word_code (f : FaultInfo) : bits (BitVec.ofNat 64 (f.word false)).toNat 55 48 = f.code % 256 := by
  simp only [bits, FaultInfo.word, b2n, BitVec.toNat_ofNat, Nat.shiftRight_eq_div_pow, Bool.false_eq_true, if_false]
  omega

theorem Dev.getF_congr {d d' : Dev} (f : Field) (i : List Nat) (h : d'.regs = d.regs) : d'.getF f i = d.getF f i := by
  simp only [Dev.getF, Dev.word, h]

/-- The first stopping fault of a run stops it at once and is the one recorded (R352). -/
theorem Dev.stopFault_first (f : FaultInfo) (hrun : d.run.inRun = true) (hstop : d.sched.stop = none) :
    (d.stopFault f).sched.stop = some ⟨d.sched.sc, false⟩ ∧ (d.stopFault f).getF fREC_FAULT_CODE [] = f.code % 256 := by
  obtain ⟨g, q, h⟩ := d.fire_changes 1 f.code
  have hother : regOffset .rREC_FAULT [] ≠ regOffset .rREC_FAULT_SC [] := by decide
  have hcode := f.word_code
  unfold Dev.stopFault
  generalize BitVec.ofNat 64 (f.word false) = w at hcode ⊢
  simp only [hrun, h, Dev.withSched, hstop, Bool.not_true, Bool.false_eq_true, if_false]
  generalize hd : Dev.setWord (Dev.setWord _ .rREC_FAULT [] w) .rREC_FAULT_SC [] _ = d1
  have hword : d1.word .rREC_FAULT [] = w := by
    rw [← hd, Dev.setWord_word_other _ _ hother, Dev.setWord_word_same]
  have hsc : d1.sched.sc = d.sched.sc := by rw [← hd, Dev.setWord_sched, Dev.setWord_sched]
  have hfield : d1.getF fREC_FAULT_CODE [] = f.code % 256 := by rw [← hcode, ← hword]; rfl
  rw [hsc]
  split <;> exact ⟨rfl, (Dev.getF_congr _ _ (by rfl)).trans hfield⟩

/-- A generation mismatch writes RING_VFAULT and RING_VFAULT_SC and is then a stopping fault with code 6 (R111). -/
theorem Dev.ringFault_eq (b : InjBuf) : ∃ g f u, f.code = 6 ∧ d.ringFault b = (Dev.stopFault { d with regs := g } f).stopUnit u := by
  unfold Dev.ringFault
  simp only []
  split
  · obtain ⟨g, hg⟩ := d.setF_changes fRING_VFAULT_MORE [b.yard] 1
    rw [hg]
    exact ⟨g, _, _, rfl, rfl⟩
  · generalize BitVec.ofNat 64 (_ + _) = w
    obtain ⟨g, hg⟩ := d.setWord_changes .rRING_VFAULT [b.yard] w
    rw [hg]
    obtain ⟨g', hg'⟩ := Dev.setWord_changes { d with regs := g } .rRING_VFAULT_SC [b.yard] (BitVec.ofNat 64 d.sched.sc)
    rw [hg']
    exact ⟨g', _, _, rfl, rfl⟩

theorem Dev.ringFault_changes (b : InjBuf) : ∃ g q s, d.ringFault b = { d with regs := g, recorder := q, sched := s } := by
  obtain ⟨g, f, u, -, h⟩ := d.ringFault_eq b
  obtain ⟨g', q, s, h'⟩ := Dev.stopFault_changes { d with regs := g } f
  rw [h, h']
  exact ⟨_, _, _, rfl⟩

theorem Dev.ringFault_first (b : InjBuf) (hrun : d.run.inRun = true) (hstop : d.sched.stop = none) :
    (d.ringFault b).sched.stop = some ⟨d.sched.sc, false⟩ ∧ (d.ringFault b).getF fREC_FAULT_CODE [] = 6 := by
  obtain ⟨g, f, u, hf, h⟩ := d.ringFault_eq b
  obtain ⟨hs, hc⟩ := Dev.stopFault_first { d with regs := g } f hrun hstop
  rw [hf] at hc
  rw [h]
  exact ⟨hs, (Dev.getF_congr _ _ (by rfl)).trans hc⟩

/-! ### What does not depend on the flits on the rings -/

/-- The device with other flits on its rings. -/
def Dev.withRing (l : List RingFlit) (d : Dev) : Dev := { d with ring := l }

theorem Dev.noteWrap_withRing (r : RegName) (i : List Nat) (l : List RingFlit) :
    (d.withRing l).noteWrap r i = (d.noteWrap r i).withRing l := by
  unfold Dev.noteWrap
  rw [apply_ite (Dev.withRing l)]
  rfl

theorem Dev.loseTrigger_withRing (l : List RingFlit) : (d.withRing l).loseTrigger = d.loseTrigger.withRing l := by
  unfold Dev.loseTrigger
  simp only []
  rw [apply_ite (Dev.withRing l), ← Dev.noteWrap_withRing]
  rfl

theorem Dev.fire_withRing (s u : Nat) (l : List RingFlit) : (d.withRing l).fire s u = (d.fire s u).withRing l := by
  unfold Dev.fire
  rw [apply_ite (Dev.withRing l), apply_ite (Dev.withRing l), ← Dev.loseTrigger_withRing]
  rfl

/-- What a counter writes does not depend on the flits on the rings (R372). -/
theorem Dev.count_withRing (r : RegName) (i : List Nat) (n : Nat) (l : List RingFlit) :
    (d.withRing l).count r i n = (d.count r i n).withRing l := by
  unfold Dev.count
  simp only []
  rw [apply_ite (Dev.withRing l), ← Dev.fire_withRing, ← Dev.noteWrap_withRing]
  rfl

theorem Dev.entryRate_go_withRing (e : MEng) (fmt : Nat) (l : List RingFlit) (skip : Nat) (rs : List MmaRun) :
    Dev.entryRate.go (d.withRing l) e fmt skip rs = Dev.entryRate.go d e fmt skip rs := by
  induction rs generalizing skip with
  | nil => rfl
  | cons r rs ih => simp only [Dev.entryRate.go, ih]

theorem Dev.entryRate_withRing (e : MEng) (key fmt : Nat) (l : List RingFlit) :
    (d.withRing l).entryRate e key fmt = d.entryRate e key fmt :=
  d.entryRate_go_withRing e fmt l _ _

/-- What a flit gives an engine's mangers does not depend on the flits on the rings (R107, R108). -/
theorem RingFlit.entries_withRing (f : RingFlit) (e : MEng) (lap : Nat) (l : List RingFlit) :
    f.entries (d.withRing l) e lap = f.entries d e lap := by
  simp only [RingFlit.entries, Dev.entryRate_withRing]

/-! ### Delivery -/

theorem mangerKey_ne {row : Bool} {a b : Nat} (h : a ≠ b) : mangerKey row a ≠ mangerKey row b := by
  unfold mangerKey
  omega

/-- From `d` to `d'` the manger `k` of an engine takes the entries `es`; the engine's other mangers and its accumulators, the rings
and memory stay (R86). -/
structure Dev.Feeds (d d' : Dev) (e : MEng) (k : Nat) (es : List Entry) : Prop where
  taken : Tab.get [] (d'.m e).mangers k = Tab.get [] (d.m e).mangers k ++ es
  others : ∀ j ≠ k, Tab.get [] (d'.m e).mangers j = Tab.get [] (d.m e).mangers j
  accA : (d'.m e).accA = (d.m e).accA
  accB : (d'.m e).accB = (d.m e).accB
  ring : d'.ring = d.ring
  mem : d'.mem = d.mem

variable {d} in
theorem Dev.Feeds.trans {d' d'' : Dev} {e : MEng} {k : Nat} {es es' : List Entry} (h : d.Feeds d' e k es)
    (h' : d'.Feeds d'' e k es') : d.Feeds d'' e k (es ++ es') where
  taken := by rw [h'.taken, h.taken, List.append_assoc]
  others j hj := (h'.others j hj).trans (h.others j hj)
  accA := h'.accA.trans h.accA
  accB := h'.accB.trans h.accB
  ring := h'.ring.trans h.ring
  mem := h'.mem.trans h.mem

/-- A manger with room takes an entry (R86). -/
theorem Dev.feeds_feedManger (e : MEng) (row : Bool) (g : Nat) (en : Entry)
    (hroom : (Tab.get [] (d.m e).mangers (mangerKey row g)).length < 32) :
    d.Feeds (d.feedManger e row g en) e (mangerKey row g) [en] := by
  unfold Dev.feedManger
  simp only [Nat.not_le.2 hroom, if_false]
  generalize hd : d.setM e _ = d1
  obtain ⟨w, h⟩ := d1.maxF_changes fENG_MMANGER_PEAK [e.yard.val, e.idx.val]
    ((Tab.get [] (d.m e).mangers (mangerKey row g)).length + 1)
  rw [h]
  have hm := congrArg (Dev.m · e) hd
  simp only [Dev.setM_m_same] at hm
  constructor
  · show Tab.get [] (d1.m e).mangers _ = _
    rw [← hm]
    exact Tab.get_put_same _ _ _ _
  · intro j hj
    show Tab.get [] (d1.m e).mangers _ = _
    rw [← hm]
    exact Tab.get_put_other _ _ _ hj
  · exact (congrArg MState.accA hm).symm
  · exact (congrArg MState.accB hm).symm
  · exact (congrArg Dev.ring hd).symm
  · exact (congrArg Dev.mem hd).symm

/-- The entries a flit brings one manger. -/
def Dev.feedGroup (e : MEng) (row : Bool) (d : Dev) (g : Nat × List Entry) : Dev :=
  g.2.foldl (fun d en => d.feedManger e row g.1 en) d

theorem Dev.feeds_feedGroup (e : MEng) (row : Bool) (grp : Nat) (es : List Entry)
    (hroom : (Tab.get [] (d.m e).mangers (mangerKey row grp)).length + es.length ≤ 32) :
    d.Feeds (Dev.feedGroup e row d (grp, es)) e (mangerKey row grp) es := by
  induction es generalizing d with
  | nil => exact ⟨by simp [Dev.feedGroup], fun _ _ => rfl, rfl, rfl, rfl, rfl⟩
  | cons en es ih =>
    rw [List.length_cons] at hroom
    have h := d.feeds_feedManger e row grp en (by omega)
    exact h.trans (ih _ (by rw [h.taken, List.length_append, List.length_singleton]; omega))

/-- A flit's entries all go to the mangers they are for, where these are distinct and have room. -/
theorem Dev.feedGroups_spec (e : MEng) (row : Bool) (gs : List (Nat × List Entry)) (hnodup : (gs.map (·.1)).Nodup)
    (hroom : ∀ g ∈ gs, (Tab.get [] (d.m e).mangers (mangerKey row g.1)).length + g.2.length ≤ 32) :
    let d' := gs.foldl (Dev.feedGroup e row) d
    (∀ g ∈ gs, Tab.get [] (d'.m e).mangers (mangerKey row g.1) = Tab.get [] (d.m e).mangers (mangerKey row g.1) ++ g.2) ∧
      (∀ a ∉ gs.map (·.1), Tab.get [] (d'.m e).mangers (mangerKey row a) = Tab.get [] (d.m e).mangers (mangerKey row a)) ∧
      (d'.m e).accA = (d.m e).accA ∧ (d'.m e).accB = (d.m e).accB ∧ d'.ring = d.ring ∧ d'.mem = d.mem := by
  induction gs generalizing d with
  | nil => simp
  | cons g gs ih =>
    obtain ⟨hg, hnd⟩ := List.nodup_cons.1 hnodup
    have h := d.feeds_feedGroup e row g.1 g.2 (hroom g (by simp))
    have hold : ∀ a ≠ g.1, Tab.get [] ((Dev.feedGroup e row d g).m e).mangers (mangerKey row a) =
        Tab.get [] (d.m e).mangers (mangerKey row a) := fun a ha => h.others _ (mangerKey_ne ha)
    have hne : ∀ x ∈ gs, x.1 ≠ g.1 := fun x hx hxg => hg (List.mem_map.2 ⟨x, hx, hxg⟩)
    obtain ⟨htaken, hother, hA, hB, hring, hmem⟩ := ih (Dev.feedGroup e row d g) hnd fun x hx => by
      rw [hold _ (hne x hx)]
      exact hroom x (by simp [hx])
    refine ⟨?_, ?_, hA.trans h.accA, hB.trans h.accB, hring.trans h.ring, hmem.trans h.mem⟩
    · intro x hx
      rcases List.mem_cons.1 hx with rfl | hx
      · exact (hother _ hg).trans h.taken
      · rw [← hold _ (hne x hx)]
        exact htaken x hx
    · intro a ha
      rw [List.map_cons, List.mem_cons, not_or] at ha
      exact (hother a ha.2).trans (hold a ha.1)

/-- A delivery that is made is marked in the flit, so the flit as it was is on the ring no more. -/
theorem RingFlit.not_mem_map_done (f : RingFlit) (n : Nat) (l : List RingFlit) :
    f ∉ l.map fun g => if g = f then { g with done := n :: g.done } else g := by
  rw [List.mem_map]
  rintro ⟨g, -, hg⟩
  split at hg
  · subst_vars
    exact List.cons_ne_self _ _ (congrArg RingFlit.done hg)
  · contradiction

/-- The rings once a delivery of a flit is made: the flit is gone where no copy of it is left (R103). -/
def Dev.markDelivered (d : Dev) (f : RingFlit) (n : Nat) : Dev :=
  { d with ring := d.ring.map fun g => if g = f then { g with done := n :: g.done } else g }.tidyRing

theorem Dev.markDelivered_eq (f : RingFlit) (n : Nat) : ∃ l, f ∉ l ∧ d.markDelivered f n = d.withRing l :=
  ⟨_, fun h => f.not_mem_map_done n d.ring (List.mem_filter.1 h).1, rfl⟩

section
variable {s : State} {e : MEng} {ccw : Bool} {f : RingFlit} {lap : Nat} (hdue : s.dev.deliveryDue e ccw = some (f, lap))
include hdue

theorem runs_ringDelivery_of_fenced (hfenced : s.dev.cmdFenced e.yard.val 0 (s.dev.mPos e) = true) :
    Runs (.ringDelivery e ccw .none) s
      ((s.dev.markDelivered f (16 * lap + e.idx.val)).count .rRING_DISCARD [e.yard.val] 1) := by
  simp only [Runs, exec_ringDelivery, execRingDelivery, State.upd, Dev.unitEcc_none, hdue]
  exact congrArg (fun d => Host.Outcome.next { s with dev := d }) (if_pos hfenced)

theorem runs_ringDelivery_of_fed (hfenced : s.dev.cmdFenced e.yard.val 0 (s.dev.mPos e) = false)
    (hworks : s.dev.isStopped (mNo e) = false) (hfirst : (s.dev.m e).ringAt ≠ some s.dev.sched.sc) :
    let d := s.dev.markDelivered f (16 * lap + e.idx.val)
    let gs := f.entries d e lap
    Runs (.ringDelivery e ccw .none) s (gs.2.foldl (Dev.feedGroup e gs.1)
      (d.setM e { d.m e with ringAt := some d.sched.sc, ringBefore := (d.m e).mangers })) := by
  simp only [Runs, exec_ringDelivery, execRingDelivery, State.upd, Dev.unitEcc_none, hdue]
  refine congrArg (fun d => Host.Outcome.next { s with dev := d }) ?_
  refine (if_neg (Bool.eq_false_iff.1 hfenced)).trans ((if_neg (Bool.eq_false_iff.1 hworks)).trans ((if_neg hfirst).trans ?_))
  rfl

end

/-! ### Removal -/

theorem Dev.mem_tidyRing {f : RingFlit} : f ∈ d.tidyRing.ring ↔ f ∈ d.ring ∧ (f.out = none ∨ f.lingers = true) := by
  simp [Dev.tidyRing]

/-- The flit has made its laps in a slot (R100). -/
def RingFlit.Leaves (f : RingFlit) (y : Nat) (ccw : Bool) (slot sc : Nat) : Prop :=
  f.yard = y ∧ f.ccw = ccw ∧ f.slot = slot ∧ f.gone ≤ sc ∧ f.out = none

/-- What a removal makes of a flit. -/
def RingFlit.afterRemoval (y : Nat) (ccw : Bool) (slot sc : Nat) (f : RingFlit) : RingFlit :=
  if f.yard = y && f.ccw == ccw && f.slot = slot && f.gone ≤ sc && f.out.isNone then f.leave f.gone else f

section
variable {f : RingFlit} {y : Nat} {ccw : Bool} {slot sc : Nat}

theorem RingFlit.afterRemoval_of_leaves (h : f.Leaves y ccw slot sc) : f.afterRemoval y ccw slot sc = f.leave f.gone :=
  if_pos (by simpa [RingFlit.Leaves, and_assoc] using h)

theorem RingFlit.afterRemoval_of_stays (h : ¬f.Leaves y ccw slot sc) : f.afterRemoval y ccw slot sc = f :=
  if_neg (by simpa [RingFlit.Leaves, and_assoc] using h)

/-- A flit that leaves has left, so none that a removal leaves behind is still to leave (R100). -/
theorem RingFlit.not_leaves_afterRemoval : ¬(f.afterRemoval y ccw slot sc).Leaves y ccw slot sc := by
  by_cases h : f.Leaves y ccw slot sc
  · rw [afterRemoval_of_leaves h]
    rintro ⟨-, -, -, -, hout⟩
    exact absurd hout (Option.some_ne_none _)
  · rwa [afterRemoval_of_stays h]

end

theorem runs_flitRemoval (y : Fin 4) (ccw : Bool) (slot : Fin 84) (s : State) : Runs (.flitRemoval y ccw slot) s
    (Dev.tidyRing { s.dev with ring := s.dev.ring.map (RingFlit.afterRemoval y.val ccw slot.val s.dev.sched.sc) }) :=
  exec_flitRemoval y ccw slot s

end Sys2Proof.Machine
end

section
open Sys2Proof Sys2Proof.Machine

/-- Settles O50: a flit finds its slot free and joins the ring, or its version is not there and the run stops; a delivery marks its
flit and then fills mangers or is counted; a removal moves the flits that leave out of their slot and drops those without copies. -/
theorem ringsComplete : Obligations.RingsComplete := by
  refine ⟨?_, ?_, ?_, ?_, ?_⟩
  · intro y ccw t s b slot hdue hslot herrs hfree left bs
    obtain ⟨n, hn⟩ := (s.dev.flitTaken b).flitBytes_clean b slot herrs
    have hput := Dev.putFlit_free { s.dev.flitTaken b with nonce := n } (f := s.dev.flitLeaving y.val ccw t.val b slot) hfree
    obtain ⟨g, q, hc⟩ := (((s.dev.flitTaken b).flitBytes b slot).2.putFlit (s.dev.flitLeaving y.val ccw t.val b slot)).count_changes
      (if ccw then .rRING_FLITS_CCW else .rRING_FLITS_CW) [y.val] 1
    refine ⟨_, runs_ringInjection_of_tagSlot_some hdue hslot, ?_⟩
    rw [hc, hn, hput]
    exact ⟨⟨s.dev.flitLeaving y.val ccw t.val b slot, rfl, rfl, rfl, rfl, rfl, rfl, rfl⟩, rfl, rfl, rfl, rfl, rfl⟩
  · intro y ccw t s b hdue hslot hin hstop
    obtain ⟨hstopped, hcode⟩ := (s.dev.flitTaken b).ringFault_first b hin hstop
    obtain ⟨g, q, z, h⟩ := (s.dev.flitTaken b).ringFault_changes b
    refine ⟨_, runs_ringInjection_of_tagSlot_none hdue hslot, ?_, hstopped, hcode, ?_⟩
    · rw [h]
      rfl
    · rw [h]
      exact ⟨rfl, rfl, rfl, rfl⟩
  · intro e ccw s f lap hdue hfenced hworks hfirst gs hnodup hroom
    obtain ⟨l, hgone, hl⟩ := s.dev.markDelivered_eq f (16 * lap + e.idx.val)
    refine ⟨_, runs_ringDelivery_of_fed hdue hfenced hworks hfirst, ?_⟩
    rw [hl, RingFlit.entries_withRing]
    generalize hd : (s.dev.withRing l).setM e _ = d
    obtain ⟨hmangers, haccA, haccB⟩ : (d.m e).mangers = (s.dev.m e).mangers ∧ (d.m e).accA = (s.dev.m e).accA ∧
        (d.m e).accB = (s.dev.m e).accB := by
      rw [← hd, Dev.setM_m_same]
      exact ⟨rfl, rfl, rfl⟩
    obtain ⟨htaken, -, hA, hB, hring, hmem⟩ := d.feedGroups_spec e gs.1 gs.2 hnodup (by rwa [hmangers])
    rw [hmangers] at htaken
    refine ⟨htaken, ?_, hA.trans haccA, hB.trans haccB, ?_⟩
    · rw [hring, ← hd]
      exact hgone
    · rw [hmem, ← hd]
      rfl
  · intro e ccw s f lap hdue hfenced
    obtain ⟨l, hgone, hl⟩ := s.dev.markDelivered_eq f (16 * lap + e.idx.val)
    obtain ⟨g, q, hc⟩ := s.dev.count_changes .rRING_DISCARD [e.yard.val] 1
    refine ⟨_, runs_ringDelivery_of_fenced hdue hfenced, ?_⟩
    rw [hl, Dev.count_withRing]
    refine ⟨hgone, rfl, ?_⟩
    rw [hc]
    exact ⟨rfl, rfl, rfl, rfl⟩
  · intro y ccw slot s leaves
    refine ⟨_, runs_flitRemoval y ccw slot s, ?_, ?_, ?_, ?_, rfl, rfl, rfl, rfl⟩
    · intro f hf
      obtain ⟨hmem, -⟩ := (Dev.mem_tidyRing _).1 hf
      obtain ⟨g, -, rfl⟩ := List.mem_map.1 hmem
      exact RingFlit.not_leaves_afterRemoval
    · intro f hf hstays hout
      exact (Dev.mem_tidyRing _).2 ⟨List.mem_map.2 ⟨f, hf, RingFlit.afterRemoval_of_stays hstays⟩, hout⟩
    · intro f hf hleaves hlingers
      exact (Dev.mem_tidyRing _).2 ⟨List.mem_map.2 ⟨f, hf, RingFlit.afterRemoval_of_leaves hleaves⟩, .inr hlingers⟩
    · intro f hf hout
      obtain ⟨-, hstay⟩ := (Dev.mem_tidyRing _).1 hf
      exact hstay.resolve_left hout
end
